-- ==== Sys2Proof/Word.lean ====
section
/-! DEFINITION. The word types of the SPI master burst controller (00_scope.md rules R5, R6): the widths the spec fixes.
All quantities are unsigned; bit 0 is the least significant bit of every value. -/

namespace Sys2Proof

/-- `u8`: a control-register address, a register or wire byte, a pin number, a model tag (R5). -/
abbrev Byte := BitVec 8

/-- `u16`: a sensor-register address or a millisecond count (R5, R6). -/
abbrev Half := BitVec 16

/-- `u32`: a command word, RESULT, the STATUS word (R6, R18, R70). -/
abbrev Word := BitVec 32

end Sys2Proof
end

