-- ==== Sys2Proof/Config.lean ====
section
/-! DEFINITION. The implementation parameters of 00_scope.md rule R5 as one table of plain data, its defaults, and the free
values of the model. Every parameter is fixed at build time and no command changes it; the machine reads the table from the
state (`State.cfg`), so that a statement about every state holds for every table. What the spec leaves OPEN (the vendor
sequences, the set of valid sensor addresses) is an opaque constant here: nothing can be proved of its value. -/

namespace Sys2Proof

/-- One step of a vendor sequence (R5, R142). -/
inductive VendorStep where
  /-- `SW(addr16, val8)`: sensor write. -/
  | sw (addr : Half) (val : Byte)
  /-- `RW(addr8, val8)`: control-register write. -/
  | rw (addr : Byte) (val : Byte)
  /-- `RS(addr8, mask8)`: control-register set-bit. -/
  | rs (addr : Byte) (mask : Byte)
  /-- `RC(addr8, mask8)`: control-register clear-bit. -/
  | rc (addr : Byte) (mask : Byte)
  /-- `DL(ms16)`: delay. -/
  | dl (ms : Half)
  deriving DecidableEq, Repr

/-- `SENSOR_TRANSPORT(model)` (R5): how the sensor is reached. No rule reads it (R130). -/
inductive Transport where
  | spiBus
  | i2cSide
  deriving DecidableEq, Repr, Inhabited

/-- The parameters of R5 that are indexed by a model tag, for one tag. The keys of `formats` are the values for which
`FmtValid(tag, ·)` is true, each with its `FORMAT_SEQ(tag, ·)`; `sizes` likewise for `SizeValid` and `SIZE_SEQ`. -/
structure ModelInfo where
  tag : Byte
  /-- `A_CHIPID_HIGH(tag)`. -/
  A_CHIPID_HIGH : Half
  /-- `A_CHIPID_LOW(tag)`. -/
  A_CHIPID_LOW : Half
  formats : List (Byte × List VendorStep)
  sizes : List (Byte × List VendorStep)
  /-- `INIT_SEQ(tag)`. -/
  INIT_SEQ : List VendorStep
  /-- The addresses for which `SensorAddrValid(tag, ·)` is true, as inclusive ranges. -/
  sensorRanges : List (Half × Half)
  /-- `SENSOR_TRANSPORT(tag)`. -/
  SENSOR_TRANSPORT : Transport
  deriving DecidableEq, Repr, Inhabited

/-- The parameter table of R5. The field names are the spec's; the seven names of the row `SIZE_*`, which R5 does not spell, are
the model's (log entry 26). The predicates `ModelValid`, `FmtValid`, `SizeValid` and `SensorAddrValid` are rows of their own, held
in `models`; a named value need not satisfy them. -/
structure Params where
  WRITE_BIT : Byte
  BURST_CMD : Byte
  DUMMY : Byte
  A_TEST : Byte
  A_FRAMES : Byte
  A_TIM : Byte
  A_GPIO : Byte
  A_RESET : Byte
  V_RESET_HIGH : Byte
  V_RESET_LOW : Byte
  A_CAPTURE_TRIG : Byte
  V_CAPTURE_START : Byte
  A_FIFO_CTRL : Byte
  V_FIFO_FLUSH : Byte
  V_FIFO_CLEAR_FLAG : Byte
  A_TRIG : Byte
  M_CAP_DONE : Byte
  A_FIFO_SIZE1 : Byte
  A_FIFO_SIZE2 : Byte
  A_FIFO_SIZE3 : Byte
  MODEL_OV5642 : Byte
  FMT_BMP : Byte
  FMT_JPEG : Byte
  FMT_RAW : Byte
  SIZE_320x240 : Byte
  SIZE_640x480 : Byte
  SIZE_1024x768 : Byte
  SIZE_1280x960 : Byte
  SIZE_1600x1200 : Byte
  SIZE_2048x1536 : Byte
  SIZE_2592x1944 : Byte
  T_RESET_MS_DEFAULT : Half
  models : List ModelInfo
  deriving DecidableEq, Repr

namespace Config

/-! ### Free values (93_implementation_defined.md U9; 20_memory.md R52) -/

/-- The `n`-th answer of a peripheral of which nothing is known: "chosen by the peripheral" (R52). Log entry 5. -/
opaque freeAnswer : Nat → Byte

/-- What the test double would answer to a transfer outside every transaction, which "cannot happen" (R54). Log entry 20. -/
opaque idleAnswer : Byte

/-! ### OPEN parameters (R5; 92_eei_decisions.md D18, D19). Log entry 8. -/

/-- `INIT_SEQ(model)`: OPEN, no default. -/
opaque INIT_SEQ : Byte → List VendorStep

/-- `FORMAT_SEQ(model, fmt)`: OPEN, no default. -/
opaque FORMAT_SEQ : Byte → Byte → List VendorStep

/-- `SIZE_SEQ(model, size)`: OPEN, no default. -/
opaque SIZE_SEQ : Byte → Byte → List VendorStep

/-- The ranges of valid sensor addresses of a model (`SensorAddrValid`): OPEN, no default. -/
opaque SENSOR_RANGES : Byte → List (Half × Half)

/-- The parameters of a model tag that the table does not list. BIND refuses such a tag (R75), so no run reads them.
Log entry 19. -/
opaque unlistedModel : Byte → ModelInfo

/-! ### Defaults of the enumeration values (R5, general knowledge; log entry 7) -/

def MODEL_OV5642 : Byte := 3#8
def FMT_BMP : Byte := 0#8
def FMT_JPEG : Byte := 1#8
def FMT_RAW : Byte := 2#8
/-- 320x240. -/
def SIZE_320x240 : Byte := 0#8
/-- 640x480. -/
def SIZE_640x480 : Byte := 1#8
/-- 1024x768. -/
def SIZE_1024x768 : Byte := 2#8
/-- 1280x960. -/
def SIZE_1280x960 : Byte := 3#8
/-- 1600x1200. -/
def SIZE_1600x1200 : Byte := 4#8
/-- 2048x1536. -/
def SIZE_2048x1536 : Byte := 5#8
/-- 2592x1944. -/
def SIZE_2592x1944 : Byte := 6#8

/-- The one model of the default table: OV5642 (R5). Its sequences and its valid sensor addresses are OPEN. -/
def ov5642 : ModelInfo where
  tag := MODEL_OV5642
  A_CHIPID_HIGH := 0x300A#16
  A_CHIPID_LOW := 0x300B#16
  formats := [FMT_BMP, FMT_JPEG, FMT_RAW].map fun f => (f, FORMAT_SEQ MODEL_OV5642 f)
  sizes :=
    [SIZE_320x240, SIZE_640x480, SIZE_1024x768, SIZE_1280x960, SIZE_1600x1200, SIZE_2048x1536, SIZE_2592x1944].map
      fun z => (z, SIZE_SEQ MODEL_OV5642 z)
  INIT_SEQ := INIT_SEQ MODEL_OV5642
  sensorRanges := SENSOR_RANGES MODEL_OV5642
  SENSOR_TRANSPORT := .i2cSide

/-- The default table of R5. Only `T_RESET_MS_DEFAULT` is the source's own value; the rest is the general knowledge R5 lists
(log entry 7). -/
def defaults : Params where
  WRITE_BIT := 0x80#8
  BURST_CMD := 0x3C#8
  DUMMY := 0x00#8
  A_TEST := 0x00#8
  A_FRAMES := 0x01#8
  A_TIM := 0x03#8
  A_GPIO := 0x06#8
  A_RESET := 0x07#8
  V_RESET_HIGH := 0x80#8
  V_RESET_LOW := 0x00#8
  A_CAPTURE_TRIG := 0x04#8
  V_CAPTURE_START := 0x02#8
  A_FIFO_CTRL := 0x04#8
  V_FIFO_FLUSH := 0x01#8
  V_FIFO_CLEAR_FLAG := 0x01#8
  A_TRIG := 0x41#8
  M_CAP_DONE := 0x08#8
  A_FIFO_SIZE1 := 0x42#8
  A_FIFO_SIZE2 := 0x43#8
  A_FIFO_SIZE3 := 0x44#8
  MODEL_OV5642 := MODEL_OV5642
  FMT_BMP := FMT_BMP
  FMT_JPEG := FMT_JPEG
  FMT_RAW := FMT_RAW
  SIZE_320x240 := SIZE_320x240
  SIZE_640x480 := SIZE_640x480
  SIZE_1024x768 := SIZE_1024x768
  SIZE_1280x960 := SIZE_1280x960
  SIZE_1600x1200 := SIZE_1600x1200
  SIZE_2048x1536 := SIZE_2048x1536
  SIZE_2592x1944 := SIZE_2592x1944
  T_RESET_MS_DEFAULT := 100#16
  models := [ov5642]

end Config

end Sys2Proof
end

