-- ==== Sys2Proof/Machine/Params.lean ====
section
/-! DEFINITION. The model-indexed parameters of 00_scope.md rule R5 read from the table: `ModelValid`, `FmtValid`, `SizeValid`,
`SensorAddrValid`, the chip-id addresses and the vendor sequences. -/

namespace Sys2Proof

/-- The entry of a model tag; a tag the table lacks has an unknown entry (log entry 19). Of two entries with one tag the first
counts (log entry 23). -/
def Params.info (P : Params) (tag : Byte) : ModelInfo :=
  (P.models.find? fun m => m.tag == tag).getD (Config.unlistedModel tag)

/-- `ModelValid(tag)` (R5, R75): the table has an entry for the tag. -/
def Params.modelValid (P : Params) (tag : Byte) : Bool :=
  P.models.any fun m => m.tag == tag

/-- `FmtValid(model, fmt)` (R5, R75). -/
def Params.fmtValid (P : Params) (model fmt : Byte) : Bool :=
  (P.info model).formats.any fun e => e.1 == fmt

/-- `SizeValid(model, size)` (R5, R75). -/
def Params.sizeValid (P : Params) (model size : Byte) : Bool :=
  (P.info model).sizes.any fun e => e.1 == size

/-- `SensorAddrValid(model, addr16)` (R5, R133). -/
def Params.sensorAddrValid (P : Params) (model : Byte) (addr : Half) : Bool :=
  (P.info model).sensorRanges.any fun r => r.1.toNat ≤ addr.toNat && addr.toNat ≤ r.2.toNat

/-- `INIT_SEQ(model)` (R5, R144). -/
def Params.initSeq (P : Params) (model : Byte) : List VendorStep :=
  (P.info model).INIT_SEQ

/-- The sequence an enumeration value selects in a list of such values; a value the list lacks is refused before its sequence
is asked for (R75), and its sequence is unknown. -/
def seqOf (entries : List (Byte × List VendorStep)) (unknown : List VendorStep) (key : Byte) : List VendorStep :=
  match entries.find? fun e => e.1 == key with
  | some e => e.2
  | none => unknown

/-- `FORMAT_SEQ(model, fmt)` (R5, R145). -/
def Params.formatSeq (P : Params) (model fmt : Byte) : List VendorStep :=
  seqOf (P.info model).formats (Config.FORMAT_SEQ model fmt) fmt

/-- `SIZE_SEQ(model, size)` (R5, R146). -/
def Params.sizeSeq (P : Params) (model size : Byte) : List VendorStep :=
  seqOf (P.info model).sizes (Config.SIZE_SEQ model size) size

end Sys2Proof
end

