-- ==== Sys2Proof/Syntax.lean ====
section
/-! DEFINITION. The commands of the block as syntax: one constructor per row of spec/opcode_table.json, in the table's order
(30_encoding.md rules R70 to R73). Operands have exactly the widths of R71. -/

namespace Sys2Proof

/-- A host command (R73). -/
inductive Instr where
  /-- `BIND pin, model` (R100). -/
  | bind (pin : Byte) (model : Byte)
  /-- `RELEASE` (R101). -/
  | release
  /-- `STATUS` (R102). -/
  | status
  /-- `SETDLY ms` (R103). -/
  | setdly (ms : Half)
  /-- `WRITE_REG addr, value` (R120). -/
  | writeReg (addr : Byte) (value : Byte)
  /-- `READ_REG addr` (R121). -/
  | readReg (addr : Byte)
  /-- `SET_BIT addr, mask` (R122). -/
  | setBit (addr : Byte) (mask : Byte)
  /-- `CLEAR_BIT addr, mask` (R123). -/
  | clearBit (addr : Byte) (mask : Byte)
  /-- `GET_BIT addr, mask` (R124). -/
  | getBit (addr : Byte) (mask : Byte)
  /-- `SENSOR_RD addr16` (R131). -/
  | sensorRd (addr : Half)
  /-- `SENSOR_WR addr16, value` (R132). -/
  | sensorWr (addr : Half) (value : Byte)
  /-- `GET_CHIP_ID_HIGH` (R134). -/
  | getChipIdHigh
  /-- `GET_CHIP_ID_LOW` (R135). -/
  | getChipIdLow
  /-- `GET_CHIP_ID` (R136). -/
  | getChipId
  /-- `RESET_CPLD` (R143). -/
  | resetCpld
  /-- `INIT_CAM` (R144). -/
  | initCam
  /-- `SET_FORMAT fmt` (R145). -/
  | setFormat (fmt : Byte)
  /-- `SET_JPEG_SIZE size` (R146). -/
  | setJpegSize (size : Byte)
  /-- `START_CAPTURE` (R147). -/
  | startCapture
  /-- `CAPTURE_COMPLETE` (R148). -/
  | captureComplete
  /-- `READ_FIFO_LENGTH` (R149). -/
  | readFifoLength
  /-- `FLUSH_FIFO` (R150). -/
  | flushFifo
  /-- `CLEAR_FIFO_FLAG` (R151). -/
  | clearFifoFlag
  /-- `BURST_OPEN` (R160). -/
  | burstOpen
  /-- `BURST_NEXT` (R161). -/
  | burstNext
  /-- `BURST_CLOSE` (R162). -/
  | burstClose
  deriving DecidableEq, Repr

end Sys2Proof
end

