-- ==== Sys2Proof/WellFormed.lean ====
section
/-! DEFINITION. Well-formedness: what the spec asks of a parameter table (00_scope.md R5, 30_encoding.md R76, R77) and of the
enumerated operands of a command (R75). Operand widths need no check: the constructors of `Instr` carry them. -/

namespace Sys2Proof

/-- `WRITE_BIT` has exactly one bit set (R5, R76). -/
def Params.oneWriteBit (P : Params) : Bool :=
  P.WRITE_BIT != 0#8 && (P.WRITE_BIT &&& (P.WRITE_BIT - 1#8)) == 0#8

/-- "`BURST_CMD` must have its `WRITE_BIT` position clear" (R77). -/
def Params.burstCmdIsRead (P : Params) : Bool :=
  (P.BURST_CMD &&& P.WRITE_BIT) == 0#8

/-- A parameter table of the kind R5, R76 and R77 ask for. -/
def Params.wf (P : Params) : Bool :=
  P.oneWriteBit && P.burstCmdIsRead

/-- R75: an enumerated operand is a member of its enumeration (of some model of the table, for a format or a size: the model
in use is known only when the command runs). Every other operand value is accepted. -/
def Instr.wf (P : Params) (i : Instr) : Bool :=
  match i with
  | .bind _ model => P.modelValid model
  | .setFormat fmt => P.models.any fun m => P.fmtValid m.tag fmt
  | .setJpegSize size => P.models.any fun m => P.sizeValid m.tag size
  | .release | .status | .setdly _ | .writeReg _ _ | .readReg _ | .setBit _ _ | .clearBit _ _ | .getBit _ _
  | .sensorRd _ | .sensorWr _ _ | .getChipIdHigh | .getChipIdLow | .getChipId | .resetCpld | .initCam | .startCapture
  | .captureComplete | .readFifoLength | .flushFifo | .clearFifoFlag | .burstOpen | .burstNext | .burstClose => true

end Sys2Proof
end

