-- ==== Sys2Proof/Decode.lean ====
section
/-! DEFINITION. The host command word (30_encoding.md rules R70 to R75, R83): its fields, its eight formats, the opcode table,
the decoder (total, rejecting by name) and the encoder. Every word is 32 bits long; no mode changes decoding. -/

namespace Sys2Proof

/-! ### Fields (R70) -/

/-- `op = cmd[31:24]`. -/
def fieldOp (w : Word) : Byte := w.extractLsb' 24 8
/-- `f2 = cmd[23:16]`. -/
def field2 (w : Word) : Byte := w.extractLsb' 16 8
/-- `f1 = cmd[15:8]`. -/
def field1 (w : Word) : Byte := w.extractLsb' 8 8
/-- `f0 = cmd[7:0]`. -/
def field0 (w : Word) : Byte := w.extractLsb' 0 8

/-- The word of four byte fields, `op` the most significant (R70). -/
def wordOf (op f2 f1 f0 : Byte) : Word := op ++ f2 ++ f1 ++ f0

/-- The concatenation `{hi, lo}` of two bytes: `addr16 = {f2, f1}` and `ms = {f1, f0}` (R6, R72). -/
def pairOf (hi lo : Byte) : Half := hi ++ lo
/-- `v[15:8]`. -/
def hiByte (v : Half) : Byte := v.extractLsb' 8 8
/-- `v[7:0]`. -/
def loByte (v : Half) : Byte := v.extractLsb' 0 8

/-! ### Formats (R71) -/

/-- The eight formats. -/
inductive Format where
  | Z | B | C | A | AV | S | SV | E
  deriving DecidableEq, Repr

/-- The mask column of R71: the bits of a word that must match. -/
def Format.mask (f : Format) : Word :=
  match f with
  | .Z => 0xFFFFFFFF#32
  | .B => 0xFFFF0000#32
  | .C => 0xFFFF0000#32
  | .A => 0xFFFF00FF#32
  | .AV => 0xFFFF0000#32
  | .S => 0xFF0000FF#32
  | .SV => 0xFF000000#32
  | .E => 0xFFFFFF00#32

/-- R70, R71: "every field the format does not use must be 0". -/
def Format.unusedZero (f : Format) (w : Word) : Bool :=
  match f with
  | .Z => field2 w == 0#8 && field1 w == 0#8 && field0 w == 0#8
  | .B | .C | .AV => field2 w == 0#8
  | .A => field2 w == 0#8 && field0 w == 0#8
  | .S => field0 w == 0#8
  | .SV => true
  | .E => field2 w == 0#8 && field1 w == 0#8

/-! ### The opcode map (R73) -/

/-- One row of the opcode map. -/
structure OpcodeRow where
  op : Byte
  mnemonic : String
  format : Format
  deriving DecidableEq, Repr

/-- The match column: the opcode with every other field zero (R73). -/
def OpcodeRow.pattern (r : OpcodeRow) : Word := wordOf r.op 0#8 0#8 0#8

/-- A word matches a row under the row's mask (R74). -/
def OpcodeRow.accepts (r : OpcodeRow) (w : Word) : Bool := (w &&& r.format.mask) == r.pattern

def lifecycleRows : List OpcodeRow :=
  [⟨0x01#8, "BIND", .B⟩, ⟨0x02#8, "RELEASE", .Z⟩, ⟨0x03#8, "STATUS", .Z⟩, ⟨0x04#8, "SETDLY", .C⟩]
def registerRows : List OpcodeRow :=
  [⟨0x10#8, "WRITE_REG", .AV⟩, ⟨0x11#8, "READ_REG", .A⟩, ⟨0x12#8, "SET_BIT", .AV⟩, ⟨0x13#8, "CLEAR_BIT", .AV⟩,
   ⟨0x14#8, "GET_BIT", .AV⟩]
def sensorRows : List OpcodeRow :=
  [⟨0x20#8, "SENSOR_RD", .S⟩, ⟨0x21#8, "SENSOR_WR", .SV⟩, ⟨0x22#8, "GET_CHIP_ID_HIGH", .Z⟩,
   ⟨0x23#8, "GET_CHIP_ID_LOW", .Z⟩, ⟨0x24#8, "GET_CHIP_ID", .Z⟩]
def captureRows : List OpcodeRow :=
  [⟨0x30#8, "RESET_CPLD", .Z⟩, ⟨0x31#8, "INIT_CAM", .Z⟩, ⟨0x32#8, "SET_FORMAT", .E⟩, ⟨0x33#8, "SET_JPEG_SIZE", .E⟩,
   ⟨0x34#8, "START_CAPTURE", .Z⟩, ⟨0x35#8, "CAPTURE_COMPLETE", .Z⟩, ⟨0x36#8, "READ_FIFO_LENGTH", .Z⟩,
   ⟨0x37#8, "FLUSH_FIFO", .Z⟩, ⟨0x38#8, "CLEAR_FIFO_FLAG", .Z⟩]
def burstRows : List OpcodeRow :=
  [⟨0x40#8, "BURST_OPEN", .Z⟩, ⟨0x41#8, "BURST_NEXT", .Z⟩, ⟨0x42#8, "BURST_CLOSE", .Z⟩]

/-- The 26 rows of R73. -/
def opcodeMap : List OpcodeRow := lifecycleRows ++ registerRows ++ sensorRows ++ captureRows ++ burstRows

/-- The row of a command in the opcode map. -/
def Instr.row (i : Instr) : OpcodeRow :=
  match i with
  | .bind _ _ => ⟨0x01#8, "BIND", .B⟩
  | .release => ⟨0x02#8, "RELEASE", .Z⟩
  | .status => ⟨0x03#8, "STATUS", .Z⟩
  | .setdly _ => ⟨0x04#8, "SETDLY", .C⟩
  | .writeReg _ _ => ⟨0x10#8, "WRITE_REG", .AV⟩
  | .readReg _ => ⟨0x11#8, "READ_REG", .A⟩
  | .setBit _ _ => ⟨0x12#8, "SET_BIT", .AV⟩
  | .clearBit _ _ => ⟨0x13#8, "CLEAR_BIT", .AV⟩
  | .getBit _ _ => ⟨0x14#8, "GET_BIT", .AV⟩
  | .sensorRd _ => ⟨0x20#8, "SENSOR_RD", .S⟩
  | .sensorWr _ _ => ⟨0x21#8, "SENSOR_WR", .SV⟩
  | .getChipIdHigh => ⟨0x22#8, "GET_CHIP_ID_HIGH", .Z⟩
  | .getChipIdLow => ⟨0x23#8, "GET_CHIP_ID_LOW", .Z⟩
  | .getChipId => ⟨0x24#8, "GET_CHIP_ID", .Z⟩
  | .resetCpld => ⟨0x30#8, "RESET_CPLD", .Z⟩
  | .initCam => ⟨0x31#8, "INIT_CAM", .Z⟩
  | .setFormat _ => ⟨0x32#8, "SET_FORMAT", .E⟩
  | .setJpegSize _ => ⟨0x33#8, "SET_JPEG_SIZE", .E⟩
  | .startCapture => ⟨0x34#8, "START_CAPTURE", .Z⟩
  | .captureComplete => ⟨0x35#8, "CAPTURE_COMPLETE", .Z⟩
  | .readFifoLength => ⟨0x36#8, "READ_FIFO_LENGTH", .Z⟩
  | .flushFifo => ⟨0x37#8, "FLUSH_FIFO", .Z⟩
  | .clearFifoFlag => ⟨0x38#8, "CLEAR_FIFO_FLAG", .Z⟩
  | .burstOpen => ⟨0x40#8, "BURST_OPEN", .Z⟩
  | .burstNext => ⟨0x41#8, "BURST_NEXT", .Z⟩
  | .burstClose => ⟨0x42#8, "BURST_CLOSE", .Z⟩

/-! ### The decoder -/

/-- Why a word is illegal (R74). Both reasons are refused with `E_ILLEGAL`. -/
inductive DecodeError where
  /-- The opcode is not in the map of R73. -/
  | opcodeNotInMap (op : Byte)
  /-- A field the opcode's format does not use holds a non-zero bit. -/
  | unusedFieldNotZero (op : Byte)
  deriving DecidableEq, Repr

/-- The command `i` if the fields its format does not use are all zero in `w`. -/
def formed (w : Word) (i : Instr) : Except DecodeError Instr :=
  if i.row.format.unusedZero w then .ok i else .error (.unusedFieldNotZero (fieldOp w))

/-- The decoder (R70 to R74): "the opcode alone selects the command and its format". -/
def decode (w : Word) : Except DecodeError Instr :=
  match (fieldOp w).toNat with
  | 0x01 => formed w (.bind (field1 w) (field0 w))
  | 0x02 => formed w .release
  | 0x03 => formed w .status
  | 0x04 => formed w (.setdly (pairOf (field1 w) (field0 w)))
  | 0x10 => formed w (.writeReg (field1 w) (field0 w))
  | 0x11 => formed w (.readReg (field1 w))
  | 0x12 => formed w (.setBit (field1 w) (field0 w))
  | 0x13 => formed w (.clearBit (field1 w) (field0 w))
  | 0x14 => formed w (.getBit (field1 w) (field0 w))
  | 0x20 => formed w (.sensorRd (pairOf (field2 w) (field1 w)))
  | 0x21 => formed w (.sensorWr (pairOf (field2 w) (field1 w)) (field0 w))
  | 0x22 => formed w .getChipIdHigh
  | 0x23 => formed w .getChipIdLow
  | 0x24 => formed w .getChipId
  | 0x30 => formed w .resetCpld
  | 0x31 => formed w .initCam
  | 0x32 => formed w (.setFormat (field0 w))
  | 0x33 => formed w (.setJpegSize (field0 w))
  | 0x34 => formed w .startCapture
  | 0x35 => formed w .captureComplete
  | 0x36 => formed w .readFifoLength
  | 0x37 => formed w .flushFifo
  | 0x38 => formed w .clearFifoFlag
  | 0x40 => formed w .burstOpen
  | 0x41 => formed w .burstNext
  | 0x42 => formed w .burstClose
  | _ => .error (.opcodeNotInMap (fieldOp w))

/-- The word as a host lays it out from the table's bits: the low `nbits` bits of `w`, every bit above them 0. -/
def tableWord (nbits w : Nat) : Word := BitVec.ofNat 32 (w % 2 ^ nbits)

/-- What the decoder reads from the `nbits` low bits of `w`, numbered as the opcode table numbers them. The command word is
the 32-bit port word itself (R70), so no byte order enters; more than 32 bits is no command word (log entry 22). -/
def decodeTableWord (nbits w : Nat) : Option Instr :=
  if nbits ≤ 32 then
    match decode (tableWord nbits w) with
    | .ok i => some i
    | .error _ => none
  else none

/-! ### The encoder -/

/-- The command word of a command (R70 to R73): its opcode and its operands' fields, every unused field 0. -/
def encode (i : Instr) : Word :=
  match i with
  | .bind pin model => wordOf 0x01#8 0#8 pin model
  | .release => wordOf 0x02#8 0#8 0#8 0#8
  | .status => wordOf 0x03#8 0#8 0#8 0#8
  | .setdly ms => wordOf 0x04#8 0#8 (hiByte ms) (loByte ms)
  | .writeReg addr value => wordOf 0x10#8 0#8 addr value
  | .readReg addr => wordOf 0x11#8 0#8 addr 0#8
  | .setBit addr mask => wordOf 0x12#8 0#8 addr mask
  | .clearBit addr mask => wordOf 0x13#8 0#8 addr mask
  | .getBit addr mask => wordOf 0x14#8 0#8 addr mask
  | .sensorRd addr => wordOf 0x20#8 (hiByte addr) (loByte addr) 0#8
  | .sensorWr addr value => wordOf 0x21#8 (hiByte addr) (loByte addr) value
  | .getChipIdHigh => wordOf 0x22#8 0#8 0#8 0#8
  | .getChipIdLow => wordOf 0x23#8 0#8 0#8 0#8
  | .getChipId => wordOf 0x24#8 0#8 0#8 0#8
  | .resetCpld => wordOf 0x30#8 0#8 0#8 0#8
  | .initCam => wordOf 0x31#8 0#8 0#8 0#8
  | .setFormat fmt => wordOf 0x32#8 0#8 0#8 fmt
  | .setJpegSize size => wordOf 0x33#8 0#8 0#8 size
  | .startCapture => wordOf 0x34#8 0#8 0#8 0#8
  | .captureComplete => wordOf 0x35#8 0#8 0#8 0#8
  | .readFifoLength => wordOf 0x36#8 0#8 0#8 0#8
  | .flushFifo => wordOf 0x37#8 0#8 0#8 0#8
  | .clearFifoFlag => wordOf 0x38#8 0#8 0#8 0#8
  | .burstOpen => wordOf 0x40#8 0#8 0#8 0#8
  | .burstNext => wordOf 0x41#8 0#8 0#8 0#8
  | .burstClose => wordOf 0x42#8 0#8 0#8 0#8

end Sys2Proof
end

