-- ==== Sys2Proof/Machine/State.lean ====
section
/-! DEFINITION. What the machine holds (10_state.md): the block's own registers, and beside them what the one-step interface
needs as plain data: the build-time parameter table, the host's coming acts, the peripheral, and the outputs since reset
(R27: these four are inputs and outputs of the step and not state of the block; log entries 3, 5, 7, 21). -/

namespace Sys2Proof.Machine

/-! ### Registers of the block -/

/-- The capture-state tag CAP (R17); the values 5, 6 and 7 are never held. -/
inductive CapState where
  | uninitialized
  | reset
  | configured
  | capturing
  | frameReady
  deriving DecidableEq, Repr

/-- The error codes of R171; the codes 8 to 15 are never produced. -/
inductive Err where
  | ok
  | illegal
  | unbound
  | bound
  | lease
  | precond
  | sbaddr
  | rawmgd
  deriving DecidableEq, Repr

/-- The driver instance (R11 to R13): PIN and MODEL exist exactly while it does. -/
structure Driver where
  pin : Byte
  model : Byte
  deriving DecidableEq, Repr

/-- PHASE (R25): IDLE, or RUN(op, k), "executing command `op`, about to produce its k-th event", counted from 0
(DESIGN CHOICE, log entry 27). -/
inductive Phase where
  | idle
  | run (op : Instr) (k : Nat)
  deriving DecidableEq, Repr

/-! ### What passes between the block and the outside -/

/-- A bus event (00_scope.md, event alphabet under R4). -/
inductive Event where
  | acq (pin : Byte)
  | rel (pin : Byte)
  | csLow
  | csHigh
  | xfer (out inp : Byte)
  | sbRd (addr : Half) (val : Byte)
  | sbWr (addr : Half) (val : Byte)
  | delay (ms : Half)
  deriving DecidableEq, Repr

/-- One response (R80): `rsp_err` and `rsp_result`. -/
structure Response where
  err : BitVec 4
  result : Word
  deriving DecidableEq, Repr

/-- One act of the host (R4, R190, R197): a word on the command port, or an assertion of `rst_n`. -/
inductive HostAct where
  | command (w : Word)
  | reset
  deriving DecidableEq, Repr

/-- Bytes by address in canonical form: addresses strictly rising, no entry equal to what an unlisted address reads as (0x00,
R53, R59). The block has no memory (20_memory.md); the test double holds two of these. -/
abbrev Memory := List Host.Cell

/-- Where the test double stands in a transaction (R53). -/
inductive DoubleMode where
  | idle
  | cmd
  | wdata (i : Byte)
  | rdata (i : Byte)
  | bursting
  | done
  deriving DecidableEq, Repr

/-- The reference peripheral (R53). It is no description of the camera. -/
structure Double where
  reg : Memory
  fifo : List Byte
  rp : Nat
  len : BitVec 24
  done : Bool
  started : Bool
  pollsLeft : Nat
  sreg : Memory
  nextFrame : List Byte
  latency : Nat
  mode : DoubleMode
  deriving DecidableEq, Repr

/-- The peripheral on the other end of the bus (R52). `oracle script n` is a peripheral of which nothing is known: it has given
`n` answers, gives those of `script` next, and after them free values. `double d` is the test double. -/
inductive Peripheral where
  | oracle (script : List Byte) (n : Nat)
  | double (d : Double)
  deriving DecidableEq, Repr

/-- The machine. -/
structure State where
  /-- BOUND, PIN and MODEL (R11 to R13): BOUND = 1 exactly when there is an instance. -/
  driver : Option Driver
  /-- CS (R14): true = high = deasserted. -/
  cs : Bool
  /-- TXN (R15). -/
  txn : Bool
  /-- BURST (R16). -/
  burst : Bool
  /-- CAP (R17). -/
  cap : CapState
  /-- RESULT (R18). -/
  result : Word
  /-- SR (R19). -/
  sr : Byte
  /-- TMP (R20). -/
  tmp : Byte
  /-- T_RESET_MS (R21). -/
  tResetMs : Half
  /-- ERR (R22). -/
  err : Err
  /-- S_REFUSED (R23). -/
  sRefused : Bool
  /-- S_PRECOND (R23). -/
  sPrecond : Bool
  /-- S_SBADDR (R23). -/
  sSbaddr : Bool
  /-- S_RAWMGD (R23). -/
  sRawmgd : Bool
  /-- PHASE (R25). -/
  phase : Phase
  /-- The parameter table (R5). No step writes it. -/
  cfg : Params
  /-- What the host will do, first act first (R197). -/
  inputs : List HostAct
  /-- The events since reset, oldest first (R8, R30). -/
  trace : List Event
  /-- The responses since reset, oldest first (R80). -/
  responses : List Response
  /-- The peripheral (R52). -/
  periph : Peripheral
  deriving DecidableEq, Repr

/-- BOUND (R11). -/
def State.bound (s : State) : Bool := s.driver.isSome

/-! ### How a step can stop -/

/-- A micro-operation called where R7 gives it no effect. No command raises one from a state that meets the invariant of R26;
each is safe (the model stops). -/
inductive Fault where
  /-- `cs_low` while BOUND = 0: raised by `csLow` (R110). Safe. -/
  | csLowUnbound
  /-- `cs_low` while TXN = 1: raised by `csLow` (R110). Safe. -/
  | transactionAlreadyOpen
  /-- `xfer` while TXN = 0: raised by `xfer` (R7, R111). Safe. -/
  | xferOutsideTransaction
  /-- `cs_high` while TXN = 0: raised by `csHigh` (R112). Safe. -/
  | csHighOutsideTransaction
  /-- `sb_read` or `sb_write` while TXN = 1: raised by `sbRead` and `sbWrite` (R7, R130). Safe. -/
  | sensorExchangeInTransaction
  /-- `delay` while TXN = 1: raised by `delay` (R114). Safe. -/
  | delayInTransaction
  deriving DecidableEq, Repr

/-- Why the model gives a step no meaning. -/
inductive Refusal where
  /-- The instruction has no meaning yet: raised by `exec` alone. Safe. -/
  | notModelled (mnemonic : String)
  /-- A command word waits while PHASE is not IDLE: raised by `step` alone (R50, R60; log entry 2). Safe: the model takes
  commands whole, so no step leads to such a state. -/
  | commandInProgress
  deriving DecidableEq, Repr

/-! ### Reset -/

/-- The machine right after block reset (R30, R190), with the default table, no act of the host to come, and a peripheral of
which nothing is known. SR and TMP have no reset value in the spec; the model names 0 (log entries 10, 11). -/
def State.reset : State where
  driver := none
  cs := true
  txn := false
  burst := false
  cap := .uninitialized
  result := 0#32
  sr := 0#8
  tmp := 0#8
  tResetMs := Config.defaults.T_RESET_MS_DEFAULT
  err := .ok
  sRefused := false
  sPrecond := false
  sSbaddr := false
  sRawmgd := false
  phase := .idle
  cfg := Config.defaults
  inputs := []
  trace := []
  responses := []
  periph := .oracle [] 0

end Sys2Proof.Machine
end

