-- ==== Sys2Proof/Machine/Flags.lean ====
section
/-! DEFINITION. ERR, the sticky flags, the capture-state check and the STATUS word (10_state.md R17, R22 to R24;
60_exceptions.md R171 to R173, R177; 44_capture_sequencer.md R141). -/

namespace Sys2Proof.Machine

/-- The 3-bit encoding of CAP (R17). -/
def CapState.code (c : CapState) : BitVec 3 :=
  match c with
  | .uninitialized => 0#3
  | .reset => 1#3
  | .configured => 2#3
  | .capturing => 3#3
  | .frameReady => 4#3

/-- The 4-bit code of an error (R171). -/
def Err.code (e : Err) : BitVec 4 :=
  match e with
  | .ok => 0#4
  | .illegal => 1#4
  | .unbound => 2#4
  | .bound => 3#4
  | .lease => 4#4
  | .precond => 5#4
  | .sbaddr => 6#4
  | .rawmgd => 7#4

/-- `min(ERR', code)` "taking 0 as none yet" (R173). -/
def Err.lowest (soFar new : Err) : Err :=
  if soFar = .ok then new else if soFar.code ≤ new.code then soFar else new

/-- `flag(E_PRECOND)` (R173): the sticky flag and ERR; the command goes on. -/
def flagPrecond (s : State) : State :=
  { s with sPrecond := true, err := s.err.lowest .precond }

/-- `flag(E_SBADDR)` (R173). -/
def flagSbaddr (s : State) : State :=
  { s with sSbaddr := true, err := s.err.lowest .sbaddr }

/-- `flag(E_RAWMGD)` (R173). -/
def flagRawmgd (s : State) : State :=
  { s with sRawmgd := true, err := s.err.lowest .rawmgd }

/-- The `ok` of `check(S)` (R141): CAP is in the legal set. -/
def capOk (legal : List CapState) (s : State) : Bool := legal.contains s.cap

/-- `check(S)` (R141): a violation is flagged and the command goes on. -/
def check (legal : List CapState) (s : State) : State :=
  if capOk legal s then s else flagPrecond s

/-- `if ok then CAP <- c` (R141). -/
def moveCap (ok : Bool) (c : CapState) (s : State) : State :=
  if ok then { s with cap := c } else s

/-- The STATUS word (R24): bits 31:16 = 0, 15 = S_RAWMGD, 14 = S_SBADDR, 13 = S_PRECOND, 12 = S_REFUSED, 11:8 = ERR, 7 = 0,
6:4 = CAP, 3 = CS, 2 = BURST, 1 = TXN, 0 = BOUND. -/
def statusWord (s : State) : Word :=
  0#16 ++ BitVec.ofBool s.sRawmgd ++ BitVec.ofBool s.sSbaddr ++ BitVec.ofBool s.sPrecond ++ BitVec.ofBool s.sRefused
    ++ s.err.code ++ 0#1 ++ s.cap.code ++ BitVec.ofBool s.cs ++ BitVec.ofBool s.burst ++ BitVec.ofBool s.txn
    ++ BitVec.ofBool s.bound

end Sys2Proof.Machine
end

