-- ==== Sys2Proof/Machine/Memory.lean ====
section
/-! DEFINITION. Reading and writing one byte of a `Memory` (the test double's control and sensor registers, 20_memory.md R53,
R59), and its canonical form. -/

namespace Sys2Proof.Machine

/-- What an address holds that nothing has written: 0x00 (R53, R59; log entry 16). -/
def Memory.unlisted : Byte := 0x00#8

/-- The byte at an address. -/
def Memory.read (m : Memory) (a : Nat) : Byte :=
  match m with
  | [] => Memory.unlisted
  | c :: rest => if c.1 = a then c.2 else Memory.read rest a

/-- An entry put in front of a list, left out when it says what an unlisted address reads as. -/
def Memory.entry (a : Nat) (v : Byte) (m : Memory) : Memory :=
  if v = Memory.unlisted then m else (a, v) :: m

/-- One byte written, the canonical form kept. -/
def Memory.write (m : Memory) (a : Nat) (v : Byte) : Memory :=
  match m with
  | [] => Memory.entry a v []
  | c :: rest =>
    if a < c.1 then Memory.entry a v (c :: rest)
    else if a = c.1 then Memory.entry a v rest
    else c :: Memory.write rest a v

/-- The canonical form: addresses strictly rising, no entry that an unlisted address would read as. -/
abbrev Memory.wf (m : Memory) : Prop :=
  m.Pairwise (fun c d => c.1 < d.1) ∧ ∀ c ∈ m, c.2 ≠ Memory.unlisted

end Sys2Proof.Machine
end

