-- ==== Sys2Proof/Machine/Operands.lean ====
section
/-! DEFINITION. The operand forms and the values the commands compute: the address byte on the wire (30_encoding.md R76),
managed addresses (42_register_access.md R126), the two bit operations (R122, R123), and the quantities assembled from single
bytes (20_memory.md R43). -/

namespace Sys2Proof.Machine

/-- `zext_32` of a byte (R6). -/
def zext32 (b : Byte) : Word := b.setWidth 32

/-- `AddrW(a) = a | WRITE_BIT` (R76). -/
def addrW (P : Params) (a : Byte) : Byte := a ||| P.WRITE_BIT

/-- `AddrR(a) = a & ~WRITE_BIT` (R76). -/
def addrR (P : Params) (a : Byte) : Byte := a &&& ~~~P.WRITE_BIT

/-- `managed(addr)` (R126). -/
def managed (P : Params) (a : Byte) : Bool :=
  addrR P a == addrR P P.A_RESET || addrR P a == addrR P P.A_CAPTURE_TRIG || addrR P a == addrR P P.A_FIFO_CTRL

/-- The byte `set_bit` writes back (R122). -/
def orMask (r mask : Byte) : Byte := r ||| mask

/-- The byte `clear_bit` writes back (R123). -/
def andNotMask (r mask : Byte) : Byte := r &&& ~~~mask

/-- "reports whether any bit in `mask` is set" (R124). -/
def anyBit (r mask : Byte) : Bool := (r &&& mask) != 0#8

/-- A Boolean result: 0 or 1 (R18). -/
def boolWord (b : Bool) : Word := if b then 1#32 else 0#32

/-- `(high << 8) | low` at 32 bits (R136). -/
def chipIdWord (high low : Byte) : Word := (zext32 high <<< 8) ||| zext32 low

/-- `(high << 16) | (mid << 8) | low` at 32 bits (R149). -/
def fifoLengthWord (low mid high : Byte) : Word := (zext32 high <<< 16) ||| (zext32 mid <<< 8) ||| zext32 low

end Sys2Proof.Machine
end

