-- ==== Sys2Proof/Machine/Peripheral.lean ====
section
/-! DEFINITION. What the peripheral answers (20_memory.md R52) and how the test double moves (R53 to R59). -/

namespace Sys2Proof.Machine

/-! ### The test double -/

/-- The double before a run (R53), with its four test inputs. -/
def Double.initial (sreg : Memory) (nextFrame : List Byte) (latency : Nat) : Double where
  reg := []
  fifo := []
  rp := 0
  len := 0#24
  done := false
  started := false
  pollsLeft := 0
  sreg := sreg
  nextFrame := nextFrame
  latency := latency
  mode := .idle

/-- The frame to come is a legal test input (R56). -/
def Double.legalInput (d : Double) : Bool := decide (d.nextFrame.length ≤ 2 ^ 24 - 1)

/-- First byte of a transaction (R55): what the double turns to. -/
def Double.takeCommand (P : Params) (out : Byte) (d : Double) : Double :=
  if (out &&& P.WRITE_BIT) ≠ 0#8 then { d with mode := .wdata (addrR P out) }
  else if out = P.BURST_CMD then { d with rp := 0, mode := .bursting }
  else { d with mode := .rdata out }

/-- R56, first side effect: a start write stores the next frame. A frame longer than 2^24 - 1 bytes "is not a legal test input"
(`Double.legalInput`); given one all the same, the model keeps its length modulo 2^24 (DESIGN CHOICE, log entry 28). -/
def Double.startCapture (P : Params) (i out : Byte) (d : Double) : Double :=
  if i = addrR P P.A_CAPTURE_TRIG ∧ out = P.V_CAPTURE_START then
    { d with fifo := d.nextFrame, len := BitVec.ofNat 24 d.nextFrame.length, done := false, started := true,
             pollsLeft := d.latency }
  else d

/-- R56, second side effect: a flush resets the read pointer. -/
def Double.flush (P : Params) (i out : Byte) (d : Double) : Double :=
  if i = addrR P P.A_FIFO_CTRL ∧ out = P.V_FIFO_FLUSH then { d with rp := 0 } else d

/-- R56, third side effect: the write-done flag is reset. -/
def Double.clearFlag (P : Params) (i out : Byte) (d : Double) : Double :=
  if i = addrR P P.A_FIFO_CTRL ∧ out = P.V_FIFO_CLEAR_FLAG then { d with done := false, started := false } else d

/-- Second byte of a register write (R56). -/
def Double.store (P : Params) (i out : Byte) (d : Double) : Double :=
  let d := { d with reg := d.reg.write i.toNat out }
  { ((d.startCapture P i out).flush P i out).clearFlag P i out with mode := .done }

/-- One poll of the trigger-status register (R57). -/
def Double.poll (d : Double) : Double :=
  if d.started = true ∧ d.pollsLeft = 0 then { d with done := true }
  else if d.pollsLeft > 0 then { d with pollsLeft := d.pollsLeft - 1 }
  else d

/-- The trigger-status byte (R57). -/
def Double.trigByte (P : Params) (d : Double) : Byte :=
  (d.reg.read (addrR P P.A_TRIG).toNat &&& ~~~P.M_CAP_DONE) ||| (if d.done then P.M_CAP_DONE else 0#8)

/-- Second byte of a register read (R57). -/
def Double.load (P : Params) (i : Byte) (d : Double) : Byte × Double :=
  if i = addrR P P.A_FIFO_SIZE1 then (d.len.extractLsb' 0 8, { d with mode := .done })
  else if i = addrR P P.A_FIFO_SIZE2 then (d.len.extractLsb' 8 8, { d with mode := .done })
  else if i = addrR P P.A_FIFO_SIZE3 then (d.len.extractLsb' 16 8, { d with mode := .done })
  else if i = addrR P P.A_TRIG then (d.poll.trigByte P, { d.poll with mode := .done })
  else (d.reg.read i.toNat, { d with mode := .done })

/-- One transfer (R54 to R58). -/
def Double.xfer (P : Params) (out : Byte) (d : Double) : Byte × Double :=
  match d.mode with
  | .idle => (Config.idleAnswer, d)
  | .cmd => (0x00#8, d.takeCommand P out)
  | .wdata i => (0x00#8, d.store P i out)
  | .rdata i => d.load P i
  | .bursting => ((d.fifo[d.rp]?).getD 0x00#8, { d with rp := d.rp + 1 })
  | .done => (0x00#8, d)

/-! ### The peripheral -/

/-- The next answer of a peripheral of which nothing is known (R52): the next of the script, else a free value. -/
def oracleAnswer (script : List Byte) (n : Nat) : Byte × Peripheral :=
  match script with
  | b :: rest => (b, .oracle rest (n + 1))
  | [] => (Config.freeAnswer n, .oracle [] (n + 1))

/-- The peripheral sees chip-select fall (R54). -/
def Peripheral.csLow (p : Peripheral) : Peripheral :=
  match p with
  | .oracle script n => .oracle script n
  | .double d => .double { d with mode := .cmd }

/-- The peripheral sees chip-select rise (R54). -/
def Peripheral.csHigh (p : Peripheral) : Peripheral :=
  match p with
  | .oracle script n => .oracle script n
  | .double d => .double { d with mode := .idle }

/-- One duplex transfer: the byte the peripheral sends back, and the peripheral after it. -/
def Peripheral.xfer (P : Params) (out : Byte) (p : Peripheral) : Byte × Peripheral :=
  match p with
  | .oracle script n => oracleAnswer script n
  | .double d => ((d.xfer P out).1, .double (d.xfer P out).2)

/-- One sensor-bridge read (R59, R130). -/
def Peripheral.sbRead (addr : Half) (p : Peripheral) : Byte × Peripheral :=
  match p with
  | .oracle script n => oracleAnswer script n
  | .double d => (d.sreg.read addr.toNat, .double d)

/-- One sensor-bridge write (R59, R130). -/
def Peripheral.sbWrite (addr : Half) (val : Byte) (p : Peripheral) : Peripheral :=
  match p with
  | .oracle script n => .oracle script n
  | .double d => .double { d with sreg := d.sreg.write addr.toNat val }

/-- The double's memories keep their canonical form; an oracle holds none. -/
abbrev Peripheral.wf (p : Peripheral) : Prop :=
  match p with
  | .oracle _ _ => True
  | .double d => d.reg.wf ∧ d.sreg.wf

end Sys2Proof.Machine
end

