-- ==== Sys2Proof/Machine/Ops.lean ====
section
/-! DEFINITION. The shared operations of the block: the start and end of a command, the refusal (60_exceptions.md R170, R172),
the micro-operations of the bus (00_scope.md R7, 41_bus_transaction.md R110 to R114) and of the sensor bridge (R130), the
composite register accesses (42_register_access.md), the vendor sequences (44_capture_sequencer.md R142), block reset (R190) and
the ports (R4). -/

namespace Sys2Proof.Machine

/-- Where the machine goes after a step. -/
abbrev Result := Host.Outcome State Fault Refusal

/-- What is left of a command: the state, or the micro-operation that R7 forbids there. -/
abbrev Exec := Except Fault State

/-! ### Start, events, end -/

/-- PHASE `n` events further (R25). -/
def Phase.advance (n : Nat) (p : Phase) : Phase :=
  match p with
  | .idle => .idle
  | .run op k => .run op (k + n)

/-- A command that passed admission starts: PHASE leaves IDLE (R25) and ERR is 0 (R170 step 8). That the first event is number 0
is the model's choice: R25 does not say where `k` starts (DESIGN CHOICE, log entry 27). -/
def begin (i : Instr) (s : State) : State :=
  { s with phase := .run i 0, err := .ok }

/-- One event is produced (R7, R25). -/
def emit (e : Event) (s : State) : State :=
  { s with trace := s.trace ++ [e], phase := s.phase.advance 1 }

/-- The response of a command: ERR and RESULT as they stand (R80). -/
def State.response (s : State) : Response := ⟨s.err.code, s.result⟩

/-- The command ends: the block is IDLE again (R25) and gives its one response (R80). -/
def finish (s : State) : State :=
  { s with phase := .idle, responses := s.responses ++ [s.response] }

/-- `refuse(code)` (R172): ERR and S_REFUSED, the response, and nothing else. "Nothing is entered" (R178): this is the block's
whole exception entry, and there is nothing to return from (R179). -/
def refuse (code : Err) (s : State) : State :=
  finish { s with err := code, sRefused := true }

/-- A command refused: a next state. -/
def refused (code : Err) (s : State) : Result := .next (refuse code s)

/-- A command executed to its end, or stopped by a micro-operation R7 forbids. -/
def complete (r : Exec) : Result :=
  match r with
  | .ok s => .next (finish s)
  | .error f => .fault f

/-! ### Admission (R170) -/

/-- The commands that need a live reader (R170 step 7). -/
def needsReader (i : Instr) : Bool :=
  match i with
  | .burstNext | .burstClose => true
  | .bind _ _ | .release | .status | .setdly _ | .writeReg _ _ | .readReg _ | .setBit _ _ | .clearBit _ _ | .getBit _ _
  | .sensorRd _ | .sensorWr _ _ | .getChipIdHigh | .getChipIdLow | .getChipId | .resetCpld | .initCam | .setFormat _
  | .setJpegSize _ | .startCapture | .captureComplete | .readFifoLength | .flushFifo | .clearFifoFlag | .burstOpen => false

/-- The enumeration check that needs MODEL (R170 step 6). -/
def enumOk (i : Instr) (P : Params) (model : Byte) : Bool :=
  match i with
  | .setFormat fmt => P.fmtValid model fmt
  | .setJpegSize size => P.sizeValid model size
  | .bind _ _ | .release | .status | .setdly _ | .writeReg _ _ | .readReg _ | .setBit _ _ | .clearBit _ _ | .getBit _ _
  | .sensorRd _ | .sensorWr _ _ | .getChipIdHigh | .getChipIdLow | .getChipId | .resetCpld | .initCam | .startCapture
  | .captureComplete | .readFifoLength | .flushFifo | .clearFifoFlag | .burstOpen | .burstNext | .burstClose => true

/-- STATUS and SETDLY: executed whatever BOUND and BURST are (R170 step 3). -/
def runAlways (i : Instr) (s : State) (body : State → Exec) : Result :=
  complete (body (begin i s))

/-- BIND: the model check, then the BOUND check (R170 steps 2 and 4). -/
def runBind (i : Instr) (model : Byte) (s : State) (body : State → Exec) : Result :=
  if s.cfg.modelValid model then
    if s.bound then refused .bound s else complete (body (begin i s))
  else refused .illegal s

/-- Every other command: the BOUND check, which yields the instance, then the enumeration, then the lease (R170 steps 5 to 7). -/
def runDriver (i : Instr) (s : State) (body : Driver → State → Exec) : Result :=
  match s.driver with
  | none => refused .unbound s
  | some d =>
    if enumOk i s.cfg d.model then
      if s.burst = needsReader i then complete (body d (begin i s)) else refused .lease s
    else refused .illegal s

/-! ### Micro-operations -/

/-- `cs_low()` (R7(a), R110): needs BOUND = 1 and TXN = 0. -/
def csLow (s : State) : Exec :=
  if s.bound then
    if s.txn then .error .transactionAlreadyOpen
    else .ok (emit .csLow { s with cs := false, txn := true, periph := s.periph.csLow })
  else .error .csLowUnbound

/-- `cs_high()` (R7(b), R112): needs TXN = 1. -/
def csHigh (s : State) : Exec :=
  if s.txn then .ok (emit .csHigh { s with cs := true, txn := false, periph := s.periph.csHigh })
  else .error .csHighOutsideTransaction

/-- `xfer(out)` (R7(c), R111): needs TXN = 1; the byte received goes to SR and is returned. -/
def xfer (out : Byte) (s : State) : Except Fault (Byte × State) :=
  if s.txn then
    let a := s.periph.xfer s.cfg out
    .ok (a.1, emit (.xfer out a.1) { s with sr := a.1, periph := a.2 })
  else .error .xferOutsideTransaction

/-- `delay(ms)` (R7(d), R114): needs TXN = 0. The model keeps the event and its count; it has no time (R209). -/
def delay (ms : Half) (s : State) : Exec :=
  if s.txn then .error .delayInTransaction else .ok (emit (.delay ms) s)

/-- `sb_read(a)` (R7(e), R130): needs TXN = 0. -/
def sbRead (addr : Half) (s : State) : Except Fault (Byte × State) :=
  if s.txn then .error .sensorExchangeInTransaction
  else
    let a := s.periph.sbRead addr
    .ok (a.1, emit (.sbRd addr a.1) { s with periph := a.2 })

/-- `sb_write(a, v)` (R7(e), R130): needs TXN = 0. -/
def sbWrite (addr : Half) (val : Byte) (s : State) : Exec :=
  if s.txn then .error .sensorExchangeInTransaction
  else .ok (emit (.sbWr addr val) { s with periph := s.periph.sbWrite addr val })

/-! ### Composite register accesses (42_register_access.md) -/

/-- `write_reg(a, v)`. -/
def writeReg (a v : Byte) (s : State) : Exec := do
  let s ← csLow s
  let (_, s) ← xfer (addrW s.cfg a) s
  let (_, s) ← xfer v s
  csHigh s

/-- `read_reg(a)`. -/
def readReg (a : Byte) (s : State) : Except Fault (Byte × State) := do
  let s ← csLow s
  let (_, s) ← xfer (addrR s.cfg a) s
  let (r, s) ← xfer s.cfg.DUMMY s
  let s ← csHigh s
  return (r, s)

/-- The read-modify-write of `set_bit` and `clear_bit` (R122, R123): the byte read is kept in TMP (R20) and written back
modified by `f`. -/
def modifyReg (a : Byte) (f : Byte → Byte) (s : State) : Exec := do
  let (r, s) ← readReg a s
  writeReg a (f r) { s with tmp := r }

/-! ### Vendor sequences (R142) -/

/-- One vendor step. `RS` and `RC` are the set-bit and clear-bit of R20, so they pass through TMP (log entry 12). -/
def runStep (v : VendorStep) (s : State) : Exec :=
  match v with
  | .sw addr val => sbWrite addr val s
  | .rw addr val => writeReg addr val s
  | .rs addr mask => modifyReg addr (fun r => orMask r mask) s
  | .rc addr mask => modifyReg addr (fun r => andNotMask r mask) s
  | .dl ms => delay ms s

/-- `run(seq)`: from the first step to the last, none skipped, repeated or reordered. -/
def runSeq (seq : List VendorStep) (s : State) : Exec :=
  match seq with
  | [] => .ok s
  | v :: rest =>
    match runStep v s with
    | .ok s => runSeq rest s
    | .error f => .error f

/-! ### Block reset (R190, R191) -/

/-- The peripheral when the block stops driving chip-select: a transaction that was open is seen to end (R191; log entry 15).
Block reset sends it nothing else (R30, R192). -/
def Peripheral.released (open_ : Bool) (p : Peripheral) : Peripheral :=
  if open_ then p.csHigh else p

/-- Block reset: every register at its value of R30, T_RESET_MS at the table's default, the trace empty; the camera is not
reset (R192). -/
def blockReset (s : State) : State :=
  { State.reset with
    tResetMs := s.cfg.T_RESET_MS_DEFAULT
    cfg := s.cfg
    inputs := s.inputs
    periph := s.periph.released s.txn }

/-! ### Ports (R4) -/

/-- `cmd_ready`: 1 exactly when PHASE = IDLE (R25). -/
def State.cmdReady (s : State) : Bool := decide (s.phase = .idle)

/-- `cmd_valid`: the host presents a command word. -/
def State.cmdValid (s : State) : Bool :=
  match s.inputs with
  | .command _ :: _ => true
  | .reset :: _ => false
  | [] => false

/-- `rsp_err` (R4, R80). -/
def State.rspErr (s : State) : BitVec 4 := s.err.code

/-- `rsp_result` (R4, R80). -/
def State.rspResult (s : State) : Word := s.result

/-- `cs_n`: driven only while BOUND = 1; none when the line is not driven (R4, R14). -/
def State.csN (s : State) : Option Bool := if s.bound then some s.cs else none

end Sys2Proof.Machine
end

