-- ==== Sys2Proof/Machine/Burst.lean ====
section
/-! DEFINITION. The Burst FIFO Reader (45_burst_reader.md): BURST_OPEN, BURST_NEXT, BURST_CLOSE. -/

namespace Sys2Proof.Machine

/-- `BURST_OPEN` (R160): the only command that ends with TXN = 1. -/
def execBurstOpen (s : State) : Result :=
  runDriver .burstOpen s fun _ s => do
    let s ← csLow (check [.frameReady] s)
    let (_, s) ← xfer s.cfg.BURST_CMD s
    return { s with burst := true, result := 0#32 }

/-- `BURST_NEXT` (R161). -/
def execBurstNext (s : State) : Result :=
  runDriver .burstNext s fun _ s => do
    let (b, s) ← xfer s.cfg.DUMMY s
    return { s with result := zext32 b }

/-- `BURST_CLOSE` (R162). -/
def execBurstClose (s : State) : Result :=
  runDriver .burstClose s fun _ s => do
    let s ← csHigh s
    return { s with burst := false, result := 0#32 }

end Sys2Proof.Machine
end

