-- ==== Sys2Proof/Machine/Capture.lean ====
section
/-! DEFINITION. The Capture State Machine (44_capture_sequencer.md): RESET_CPLD, INIT_CAM, SET_FORMAT, SET_JPEG_SIZE,
START_CAPTURE, CAPTURE_COMPLETE, READ_FIFO_LENGTH, FLUSH_FIFO, CLEAR_FIFO_FLAG. A precondition violation is flagged, the command
runs in full and CAP stays (R141). -/

namespace Sys2Proof.Machine

/-- `RESET_CPLD` (R143): legal in every state. -/
def execResetCpld (s : State) : Result :=
  runDriver .resetCpld s fun _ s => do
    let s ← writeReg s.cfg.A_RESET s.cfg.V_RESET_HIGH s
    let s ← delay s.tResetMs s
    let s ← writeReg s.cfg.A_RESET s.cfg.V_RESET_LOW s
    let s ← delay s.tResetMs s
    return { s with cap := .reset, result := 0#32 }

/-- `INIT_CAM` (R144). -/
def execInitCam (s : State) : Result :=
  runDriver .initCam s fun d s => do
    let ok := capOk [.reset, .configured] s
    let s ← runSeq (s.cfg.initSeq d.model) (check [.reset, .configured] s)
    return { moveCap ok .configured s with result := 0#32 }

/-- `SET_FORMAT fmt` (R145). -/
def execSetFormat (fmt : Byte) (s : State) : Result :=
  runDriver (.setFormat fmt) s fun d s => do
    let s ← runSeq (s.cfg.formatSeq d.model fmt) (check [.configured] s)
    return { s with result := 0#32 }

/-- `SET_JPEG_SIZE size` (R146). -/
def execSetJpegSize (size : Byte) (s : State) : Result :=
  runDriver (.setJpegSize size) s fun d s => do
    let s ← runSeq (s.cfg.sizeSeq d.model size) (check [.configured] s)
    return { s with result := 0#32 }

/-- `START_CAPTURE` (R147). -/
def execStartCapture (s : State) : Result :=
  runDriver .startCapture s fun _ s => do
    let ok := capOk [.configured] s
    let s ← writeReg s.cfg.A_CAPTURE_TRIG s.cfg.V_CAPTURE_START (check [.configured] s)
    return { moveCap ok .capturing s with result := 0#32 }

/-- `CAPTURE_COMPLETE` (R148): one read; CAP moves on a 1 in a legal state. -/
def execCaptureComplete (s : State) : Result :=
  runDriver .captureComplete s fun _ s => do
    let ok := capOk [.capturing, .frameReady] s
    let (r, s) ← readReg s.cfg.A_TRIG (check [.capturing, .frameReady] s)
    let d := anyBit r s.cfg.M_CAP_DONE
    return { moveCap (ok && d) .frameReady s with result := boolWord d }

/-- `READ_FIFO_LENGTH` (R149): low, mid, high. -/
def execReadFifoLength (s : State) : Result :=
  runDriver .readFifoLength s fun _ s => do
    let (low, s) ← readReg s.cfg.A_FIFO_SIZE1 (check [.frameReady] s)
    let (mid, s) ← readReg s.cfg.A_FIFO_SIZE2 s
    let (high, s) ← readReg s.cfg.A_FIFO_SIZE3 s
    return { s with result := fifoLengthWord low mid high }

/-- `FLUSH_FIFO` (R150). -/
def execFlushFifo (s : State) : Result :=
  runDriver .flushFifo s fun _ s => do
    let ok := capOk [.configured, .frameReady] s
    let s ← writeReg s.cfg.A_FIFO_CTRL s.cfg.V_FIFO_FLUSH (check [.configured, .frameReady] s)
    return { moveCap ok .configured s with result := 0#32 }

/-- `CLEAR_FIFO_FLAG` (R151). -/
def execClearFifoFlag (s : State) : Result :=
  runDriver .clearFifoFlag s fun _ s => do
    let ok := capOk [.configured, .frameReady] s
    let s ← writeReg s.cfg.A_FIFO_CTRL s.cfg.V_FIFO_CLEAR_FLAG (check [.configured, .frameReady] s)
    return { moveCap ok .configured s with result := 0#32 }

end Sys2Proof.Machine
end

