-- ==== Sys2Proof/Machine/Lifecycle.lean ====
section
/-! DEFINITION. The lifecycle and block-level commands (40_lifecycle.md): BIND, RELEASE, STATUS, SETDLY. -/

namespace Sys2Proof.Machine

/-- `BIND pin, model` (R100). -/
def execBind (pin model : Byte) (s : State) : Result :=
  runBind (.bind pin model) model s fun s =>
    .ok (emit (.acq pin)
      { s with driver := some ⟨pin, model⟩, cs := true, txn := false, burst := false, cap := .uninitialized, result := 0#32 })

/-- `RELEASE` (R101). PIN and MODEL then hold no value. -/
def execRelease (s : State) : Result :=
  runDriver .release s fun d s =>
    .ok { emit (.rel d.pin) s with result := zext32 d.pin, driver := none, cap := .uninitialized, cs := true }

/-- `STATUS` (R102): the word shows the state before this command. -/
def execStatus (s : State) : Result :=
  runAlways .status s fun t => .ok { t with result := statusWord s }

/-- `SETDLY ms` (R103). -/
def execSetdly (ms : Half) (s : State) : Result :=
  runAlways (.setdly ms) s fun s => .ok { s with tResetMs := ms, result := 0#32 }

end Sys2Proof.Machine
end

