-- ==== Sys2Proof/Machine/Register.lean ====
section
/-! DEFINITION. The Register Access Layer (42_register_access.md): WRITE_REG, READ_REG, SET_BIT, CLEAR_BIT, GET_BIT. -/

namespace Sys2Proof.Machine

/-- `if managed(addr) then flag(E_RAWMGD)` (R126). -/
def flagManaged (addr : Byte) (s : State) : State :=
  if managed s.cfg addr then flagRawmgd s else s

/-- `WRITE_REG addr, value` (R120). -/
def execWriteReg (addr value : Byte) (s : State) : Result :=
  runDriver (.writeReg addr value) s fun _ s => do
    let s ← writeReg addr value (flagManaged addr s)
    return { s with result := 0#32 }

/-- `READ_REG addr` (R121). -/
def execReadReg (addr : Byte) (s : State) : Result :=
  runDriver (.readReg addr) s fun _ s => do
    let (r, s) ← readReg addr s
    return { s with result := zext32 r }

/-- `SET_BIT addr, mask` (R122). -/
def execSetBit (addr mask : Byte) (s : State) : Result :=
  runDriver (.setBit addr mask) s fun _ s => do
    let s ← modifyReg addr (fun r => orMask r mask) (flagManaged addr s)
    return { s with result := 0#32 }

/-- `CLEAR_BIT addr, mask` (R123). -/
def execClearBit (addr mask : Byte) (s : State) : Result :=
  runDriver (.clearBit addr mask) s fun _ s => do
    let s ← modifyReg addr (fun r => andNotMask r mask) (flagManaged addr s)
    return { s with result := 0#32 }

/-- `GET_BIT addr, mask` (R124). -/
def execGetBit (addr mask : Byte) (s : State) : Result :=
  runDriver (.getBit addr mask) s fun _ s => do
    let (r, s) ← readReg addr s
    return { s with result := boolWord (anyBit r mask) }

end Sys2Proof.Machine
end

