-- ==== Sys2Proof/Machine/Sensor.lean ====
section
/-! DEFINITION. The Sensor Register Bridge (43_sensor_bridge.md): SENSOR_RD, SENSOR_WR and the chip-id commands. One access is
one opaque exchange (R130). -/

namespace Sys2Proof.Machine

/-- `if not SensorAddrValid(MODEL, addr16) then flag(E_SBADDR)` (R133). -/
def flagAddr (d : Driver) (addr : Half) (s : State) : State :=
  if s.cfg.sensorAddrValid d.model addr then s else flagSbaddr s

/-- The states in which SENSOR_WR is legal: all but Capturing (R132, R140). -/
def sensorWrLegal : List CapState := [.uninitialized, .reset, .configured, .frameReady]

/-- `SENSOR_RD addr16` (R131). -/
def execSensorRd (addr : Half) (s : State) : Result :=
  runDriver (.sensorRd addr) s fun d s => do
    let (v, s) ← sbRead addr (flagAddr d addr s)
    return { s with result := zext32 v }

/-- `SENSOR_WR addr16, value` (R132). -/
def execSensorWr (addr : Half) (value : Byte) (s : State) : Result :=
  runDriver (.sensorWr addr value) s fun d s => do
    let s ← sbWrite addr value (flagAddr d addr (check sensorWrLegal s))
    return { s with result := 0#32 }

/-- `GET_CHIP_ID_HIGH` (R134). -/
def execGetChipIdHigh (s : State) : Result :=
  runDriver .getChipIdHigh s fun d s => do
    let (h, s) ← sbRead (s.cfg.info d.model).A_CHIPID_HIGH s
    return { s with result := zext32 h }

/-- `GET_CHIP_ID_LOW` (R135). -/
def execGetChipIdLow (s : State) : Result :=
  runDriver .getChipIdLow s fun d s => do
    let (l, s) ← sbRead (s.cfg.info d.model).A_CHIPID_LOW s
    return { s with result := zext32 l }

/-- `GET_CHIP_ID` (R136): high half first. -/
def execGetChipId (s : State) : Result :=
  runDriver .getChipId s fun d s => do
    let (h, s) ← sbRead (s.cfg.info d.model).A_CHIPID_HIGH s
    let (l, s) ← sbRead (s.cfg.info d.model).A_CHIPID_LOW s
    return { s with result := chipIdWord h l }

end Sys2Proof.Machine
end

