-- ==== Sys2Proof/Machine/Dispatch.lean ====
section
/-! DEFINITION. One arm per command (30_encoding.md R73): each calls its meaning. -/

namespace Sys2Proof.Machine

open Sys2Proof

/-- The meaning of a command (R170 and its own rule). -/
def exec (i : Instr) (s : State) : Host.Outcome State Fault Refusal :=
  match i with
  | .bind pin model => Sys2Proof.Machine.execBind pin model s
  | .release => Sys2Proof.Machine.execRelease s
  | .status => Sys2Proof.Machine.execStatus s
  | .setdly ms => Sys2Proof.Machine.execSetdly ms s
  | .writeReg addr value => Sys2Proof.Machine.execWriteReg addr value s
  | .readReg addr => Sys2Proof.Machine.execReadReg addr s
  | .setBit addr mask => Sys2Proof.Machine.execSetBit addr mask s
  | .clearBit addr mask => Sys2Proof.Machine.execClearBit addr mask s
  | .getBit addr mask => Sys2Proof.Machine.execGetBit addr mask s
  | .sensorRd addr => Sys2Proof.Machine.execSensorRd addr s
  | .sensorWr addr value => Sys2Proof.Machine.execSensorWr addr value s
  | .getChipIdHigh => Sys2Proof.Machine.execGetChipIdHigh s
  | .getChipIdLow => Sys2Proof.Machine.execGetChipIdLow s
  | .getChipId => Sys2Proof.Machine.execGetChipId s
  | .resetCpld => Sys2Proof.Machine.execResetCpld s
  | .initCam => Sys2Proof.Machine.execInitCam s
  | .setFormat fmt => Sys2Proof.Machine.execSetFormat fmt s
  | .setJpegSize size => Sys2Proof.Machine.execSetJpegSize size s
  | .startCapture => Sys2Proof.Machine.execStartCapture s
  | .captureComplete => Sys2Proof.Machine.execCaptureComplete s
  | .readFifoLength => Sys2Proof.Machine.execReadFifoLength s
  | .flushFifo => Sys2Proof.Machine.execFlushFifo s
  | .clearFifoFlag => Sys2Proof.Machine.execClearFifoFlag s
  | .burstOpen => Sys2Proof.Machine.execBurstOpen s
  | .burstNext => Sys2Proof.Machine.execBurstNext s
  | .burstClose => Sys2Proof.Machine.execBurstClose s

end Sys2Proof.Machine
end

