-- ==== Sys2Proof/Machine/Step.lean ====
section
/-! DEFINITION. One step of the machine: one act of the host, taken whole (00_scope.md R4, 20_memory.md R50, R60). -/

namespace Sys2Proof.Machine

/-- The block takes a command word (R60, R170 step 1): an illegal word is refused with `E_ILLEGAL` (R74), any other runs. -/
def takeWord (w : Word) (s : State) : Host.Outcome State Fault Refusal :=
  match decode w with
  | .ok i => exec i s
  | .error _ => refused .illegal s

/-- One step: the host's next act. `rst_n` acts in every phase (R190); a command word is taken when the block is IDLE (R25,
R50); with no act to come the block holds (R187; log entry 3). -/
def step (s : State) : Host.Outcome State Fault Refusal :=
  match s.inputs with
  | [] => .next s
  | .reset :: rest => .next (blockReset { s with inputs := rest })
  | .command w :: rest => if s.cmdReady then takeWord w { s with inputs := rest } else .refused .commandInProgress

/-- The state with a word on the command port, before every other act of the host, and the block ready for it: "commands are
not fetched from memory, the host presents them" (92_eei_decisions.md D33; log entry 4). -/
def State.withFetchWord (s : State) (nbits w : Nat) : State :=
  { s with inputs := .command (tableWord nbits w) :: s.inputs, phase := .idle }

end Sys2Proof.Machine
end

