-- ==== Sys2Proof/Machine/Assembler.lean ====
section
/-! DEFINITION. The assembler syntax and the pseudo-commands (30_encoding.md R81, R82). The block never sees either: a line
stands for the command words it expands to. The `repeat N:` and `until` lines of the test vectors are the host's loops and no
part of a line's meaning. -/

namespace Sys2Proof.Machine

/-! ### One command from its mnemonic and operand values -/

/-- An operand value that fits in a byte. -/
def byteArg (n : Nat) : Option Byte := if n < 256 then some (BitVec.ofNat 8 n) else none

/-- An operand value that fits in 16 bits. -/
def halfArg (n : Nat) : Option Half := if n < 65536 then some (BitVec.ofNat 16 n) else none

/-- The command of a mnemonic of R73 and its operands "in the order of the source's call" (R81). -/
def assemble (mnemonic : String) (args : List Nat) : Option Instr :=
  match mnemonic, args with
  | "BIND", [pin, model] => do return .bind (← byteArg pin) (← byteArg model)
  | "RELEASE", [] => some .release
  | "STATUS", [] => some .status
  | "SETDLY", [ms] => do return .setdly (← halfArg ms)
  | "WRITE_REG", [a, v] => do return .writeReg (← byteArg a) (← byteArg v)
  | "READ_REG", [a] => do return .readReg (← byteArg a)
  | "SET_BIT", [a, m] => do return .setBit (← byteArg a) (← byteArg m)
  | "CLEAR_BIT", [a, m] => do return .clearBit (← byteArg a) (← byteArg m)
  | "GET_BIT", [a, m] => do return .getBit (← byteArg a) (← byteArg m)
  | "SENSOR_RD", [a] => do return .sensorRd (← halfArg a)
  | "SENSOR_WR", [a, v] => do return .sensorWr (← halfArg a) (← byteArg v)
  | "GET_CHIP_ID_HIGH", [] => some .getChipIdHigh
  | "GET_CHIP_ID_LOW", [] => some .getChipIdLow
  | "GET_CHIP_ID", [] => some .getChipId
  | "RESET_CPLD", [] => some .resetCpld
  | "INIT_CAM", [] => some .initCam
  | "SET_FORMAT", [f] => do return .setFormat (← byteArg f)
  | "SET_JPEG_SIZE", [z] => do return .setJpegSize (← byteArg z)
  | "START_CAPTURE", [] => some .startCapture
  | "CAPTURE_COMPLETE", [] => some .captureComplete
  | "READ_FIFO_LENGTH", [] => some .readFifoLength
  | "FLUSH_FIFO", [] => some .flushFifo
  | "CLEAR_FIFO_FLAG", [] => some .clearFifoFlag
  | "BURST_OPEN", [] => some .burstOpen
  | "BURST_NEXT", [] => some .burstNext
  | "BURST_CLOSE", [] => some .burstClose
  | _, _ => none

/-! ### Pseudo-commands (R82) -/

/-- `SENSOR_RD a`, `SENSOR_RD a+1`, ..., `n` of them. -/
def dumpSensor (a n : Nat) : Option (List Instr) :=
  (List.range n).mapM fun k => do return .sensorRd (← halfArg (a + k))

/-- The commands a pseudo-command expands to (R82). -/
def expandPseudo (P : Params) (mnemonic : String) (args : List Nat) : Option (List Instr) :=
  match mnemonic, args with
  | "TEST_WRITE", [v] => do return [.writeReg P.A_TEST (← byteArg v)]
  | "TEST_READ", [] => some [.readReg P.A_TEST]
  | "PRESENCE", [v] => do return [.writeReg P.A_TEST (← byteArg v), .readReg P.A_TEST]
  | "READ_FRAMES", [] => some [.readReg P.A_FRAMES]
  | "WRITE_FRAMES", [v] => do return [.writeReg P.A_FRAMES (← byteArg v)]
  | "SET_TIM", [m] => do return [.setBit P.A_TIM (← byteArg m)]
  | "CLEAR_TIM", [m] => do return [.clearBit P.A_TIM (← byteArg m)]
  | "SET_GPIO", [m] => do return [.setBit P.A_GPIO (← byteArg m)]
  | "CLEAR_GPIO", [m] => do return [.clearBit P.A_GPIO (← byteArg m)]
  | "GET_TRIG", [m] => do return [.getBit P.A_TRIG (← byteArg m)]
  | "DUMP_SENSOR", [a, n] => dumpSensor a n
  | _, _ => none

/-- What a mnemonic and its operands stand for: one command, or a pseudo-command's expansion. -/
def expand (P : Params) (mnemonic : String) (args : List Nat) : Option (List Instr) :=
  match assemble mnemonic args with
  | some i => some [i]
  | none => expandPseudo P mnemonic args

/-! ### A line of text (R81) -/

/-- The value a parameter name of R5 stands for in the table. R5 does not spell the names of the row `SIZE_*`: these are the model's
(log entry 26). -/
def paramValue (P : Params) (name : String) : Option Nat :=
  match name with
  | "WRITE_BIT" => some P.WRITE_BIT.toNat
  | "BURST_CMD" => some P.BURST_CMD.toNat
  | "DUMMY" => some P.DUMMY.toNat
  | "A_TEST" => some P.A_TEST.toNat
  | "A_FRAMES" => some P.A_FRAMES.toNat
  | "A_TIM" => some P.A_TIM.toNat
  | "A_GPIO" => some P.A_GPIO.toNat
  | "A_RESET" => some P.A_RESET.toNat
  | "V_RESET_HIGH" => some P.V_RESET_HIGH.toNat
  | "V_RESET_LOW" => some P.V_RESET_LOW.toNat
  | "A_CAPTURE_TRIG" => some P.A_CAPTURE_TRIG.toNat
  | "V_CAPTURE_START" => some P.V_CAPTURE_START.toNat
  | "A_FIFO_CTRL" => some P.A_FIFO_CTRL.toNat
  | "V_FIFO_FLUSH" => some P.V_FIFO_FLUSH.toNat
  | "V_FIFO_CLEAR_FLAG" => some P.V_FIFO_CLEAR_FLAG.toNat
  | "A_TRIG" => some P.A_TRIG.toNat
  | "M_CAP_DONE" => some P.M_CAP_DONE.toNat
  | "A_FIFO_SIZE1" => some P.A_FIFO_SIZE1.toNat
  | "A_FIFO_SIZE2" => some P.A_FIFO_SIZE2.toNat
  | "A_FIFO_SIZE3" => some P.A_FIFO_SIZE3.toNat
  | "MODEL_OV5642" => some P.MODEL_OV5642.toNat
  | "FMT_BMP" => some P.FMT_BMP.toNat
  | "FMT_JPEG" => some P.FMT_JPEG.toNat
  | "FMT_RAW" => some P.FMT_RAW.toNat
  | "SIZE_320x240" => some P.SIZE_320x240.toNat
  | "SIZE_640x480" => some P.SIZE_640x480.toNat
  | "SIZE_1024x768" => some P.SIZE_1024x768.toNat
  | "SIZE_1280x960" => some P.SIZE_1280x960.toNat
  | "SIZE_1600x1200" => some P.SIZE_1600x1200.toNat
  | "SIZE_2048x1536" => some P.SIZE_2048x1536.toNat
  | "SIZE_2592x1944" => some P.SIZE_2592x1944.toNat
  | "T_RESET_MS_DEFAULT" => some P.T_RESET_MS_DEFAULT.toNat
  | _ => none

/-- The value of a digit character in a base. -/
def digit (base : Nat) (c : Char) : Option Nat :=
  let n :=
    if '0'.toNat ≤ c.toNat ∧ c.toNat ≤ '9'.toNat then c.toNat - '0'.toNat
    else if 'a'.toNat ≤ c.toNat ∧ c.toNat ≤ 'f'.toNat then c.toNat - 'a'.toNat + 10
    else if 'A'.toNat ≤ c.toNat ∧ c.toNat ≤ 'F'.toNat then c.toNat - 'A'.toNat + 10
    else base
  if n < base then some n else none

/-- The number a non-empty row of digits stands for, most significant first. -/
def digits (base : Nat) (cs : List Char) : Option Nat :=
  match cs with
  | [] => none
  | _ :: _ => cs.foldlM (fun acc c => do return acc * base + (← digit base c)) 0

/-- A number, "decimal or `0x` hexadecimal", or a parameter name (R81). -/
def operand (P : Params) (cs : List Char) : Option Nat :=
  match cs with
  | '0' :: 'x' :: hex => digits 16 hex
  | _ =>
    match digits 10 cs with
    | some n => some n
    | none => paramValue P (String.ofList cs)

/-- A character that only separates. -/
def isBlank (c : Char) : Bool := c == ' ' || c == '\t' || c == '\r'

/-- A text without its leading and trailing blanks. -/
def trim (cs : List Char) : List Char := ((cs.dropWhile isBlank).reverse.dropWhile isBlank).reverse

/-- A text cut at its commas. -/
def splitCommas (cs : List Char) : List (List Char) :=
  match cs with
  | [] => [[]]
  | c :: rest =>
    if c = ',' then [] :: splitCommas rest
    else
      match splitCommas rest with
      | [] => [[c]]
      | p :: ps => (c :: p) :: ps

/-- The operands after a mnemonic, separated by commas (R81); none at all when nothing stands there. -/
def operands (P : Params) (cs : List Char) : Option (List Nat) :=
  match trim cs with
  | [] => some []
  | c :: rest => (splitCommas (c :: rest)).mapM fun part => operand P (trim part)

/-- The commands of one line: "the mnemonic, then its operands separated by commas"; "a `;` starts a comment"; an empty line
stands for none (R81). -/
def assembleLine (P : Params) (line : String) : Option (List Instr) :=
  let code := trim (line.toList.takeWhile fun c => c != ';')
  match code with
  | [] => some []
  | c :: rest => do
    let mnemonic := (c :: rest).takeWhile fun x => !isBlank x
    let args ← operands P ((c :: rest).dropWhile fun x => !isBlank x)
    expand P (String.ofList mnemonic) args

end Sys2Proof.Machine
end

