-- ==== Sys2Proof/Machine/Serial.lean ====
section
/-! DEFINITION. The bit level of one duplex transfer (41_bus_transaction.md R115): SPI mode 0, most significant bit first, eight
clock pulses. No other rule depends on it and the step does not use it: at the event level `XFER(out, in)` is atomic. The lead
and lag of `cs_n` against `sclk` are times and are not modelled (log entry 17). -/

namespace Sys2Proof.Machine

/-- The lines in one half of a clock period. -/
structure Lines where
  sclk : Bool
  mosi : Bool
  miso : Bool
  deriving DecidableEq, Repr

/-- One clock pulse: data driven while `sclk` is low (CPOL = 0), then sampled at the rising edge (CPHA = 0). -/
def clockPulse (mosi miso : Bool) : List Lines := [⟨false, mosi, miso⟩, ⟨true, mosi, miso⟩]

/-- The `n` clock pulses that carry the low `n` bits of a byte each way, from bit `n - 1` down to bit 0. -/
def pulsesFrom (out inp : Byte) (n : Nat) : List Lines :=
  match n with
  | 0 => []
  | k + 1 => clockPulse (out.getLsbD k) (inp.getLsbD k) ++ pulsesFrom out inp k

/-- The lines during one `XFER(out, inp)`: eight pulses, then the last falling edge and `sclk` idle low (CPOL = 0). What the two
data lines carry after that edge R115 does not say: `mosi` and `miso` are arguments, and may be anything (log entry 18). -/
def serialise (out inp : Byte) (mosi miso : Bool) : List Lines := pulsesFrom out inp 8 ++ [⟨false, mosi, miso⟩]

/-- The bits seen at the rising edges of `sclk`, first first. -/
def sampled (prev : Bool) (line : Lines → Bool) (ls : List Lines) : List Bool :=
  match ls with
  | [] => []
  | l :: rest => if !prev && l.sclk then line l :: sampled l.sclk line rest else sampled l.sclk line rest

/-- The shift register: each sampled bit enters at the least significant end (R19, R115). -/
def shiftIn (b : Byte) (bits : List Bool) : Byte :=
  match bits with
  | [] => b
  | x :: rest => shiftIn ((b <<< 1) ||| (BitVec.ofBool x).setWidth 8) rest

/-- The byte a receiver has shifted in when the transfer ends. -/
def received (line : Lines → Bool) (ls : List Lines) : Byte := shiftIn 0#8 (sampled false line ls)

end Sys2Proof.Machine
end

