-- ==== Sys2Proof/Safety.lean ====
section
/-! DEFINITION. The terms claims use: the invariant of 10_state.md R26, a run that is over and good (70_reset_and_hazards.md
R196), the raw commands (60_exceptions.md R182), the laws of a working camera (20_memory.md R52), and what a transaction or a
vendor sequence puts on the wire, said of the peripheral alone. -/

namespace Sys2Proof.Machine

/-! ### Invariants -/

/-- R26, at a command boundary (PHASE = IDLE): I1 to I4; I5 holds of every `CapState`. -/
structure State.Inv (s : State) : Prop where
  idle : s.phase = .idle
  /-- I1. -/
  txn_iff_low : s.txn = true ↔ s.cs = false
  /-- I2. -/
  txn_eq_burst : s.txn = s.burst
  /-- I3. -/
  burst_bound : s.burst = true → s.bound = true
  /-- I4. -/
  unbound_clear : s.bound = false → s.cs = true ∧ s.txn = false ∧ s.burst = false ∧ s.cap = .uninitialized

/-- The model tag of a bound instance is in the table (R75: BIND refuses any other). -/
def State.modelKnown (s : State) : Prop := ∀ d, s.driver = some d → s.cfg.modelValid d.model = true

/-- The double is outside every transaction exactly while the block is (R54). -/
def State.doubleFollows (s : State) : Prop :=
  match s.periph with
  | .oracle _ _ => True
  | .double d => d.mode = .idle ↔ s.txn = false

/-- The state in which the bus commands run: a driver instance, no live reader (R170 steps 5 and 7). -/
structure State.Ready (s : State) (d : Driver) : Prop where
  inv : s.Inv
  driver : s.driver = some d
  noBurst : s.burst = false

/-- The state in which BURST_NEXT and BURST_CLOSE run (R170 steps 5 and 7). -/
structure State.Bursting (s : State) (d : Driver) : Prop where
  inv : s.Inv
  driver : s.driver = some d
  inBurst : s.burst = true

/-! ### The end of a run (R196), what may be claimed of the camera (R173) -/

/-- "S_PRECOND = S_SBADDR = S_RAWMGD = 0": the premise of every claim about the camera's answers (R23, R173). -/
def State.cameraTrusted (s : State) : Bool := !s.sPrecond && !s.sSbaddr && !s.sRawmgd

/-- The last command's response has been given (R196): the block is IDLE and the host has nothing more to do, so every command
given has been taken, and each one taken has its response (R80). -/
def State.allAnswered (s : State) : Bool := s.cmdReady && s.inputs.isEmpty

/-- A run that stops in this state is over (R196): all is answered and the bus is not held. With BURST = 1 it is "not over". -/
def State.over (s : State) : Bool := s.allAnswered && !s.burst

/-- "Over and good" (R196). -/
def State.overAndGood (s : State) : Bool := s.over && s.cameraTrusted

/-- "Over and bad" (R196): the camera "has been driven outside the source's contract". -/
def State.overAndBad (s : State) : Bool := s.over && !s.cameraTrusted

/-- The raw commands (R182). -/
def rawCommand (i : Instr) : Bool :=
  match i with
  | .writeReg _ _ | .setBit _ _ | .clearBit _ _ | .sensorRd _ | .sensorWr _ _ => true
  | .bind _ _ | .release | .status | .setdly _ | .readReg _ | .getBit _ _ | .getChipIdHigh | .getChipIdLow | .getChipId
  | .resetCpld | .initCam | .setFormat _ | .setJpegSize _ | .startCapture | .captureComplete | .readFifoLength | .flushFifo
  | .clearFifoFlag | .burstOpen | .burstNext | .burstClose => false

/-- The commands that are executed whatever BOUND and BURST are (R170 steps 1 to 4). -/
def needsNoDriver (i : Instr) : Bool :=
  match i with
  | .bind _ _ | .status | .setdly _ => true
  | .release | .writeReg _ _ | .readReg _ | .setBit _ _ | .clearBit _ _ | .getBit _ _ | .sensorRd _ | .sensorWr _ _
  | .getChipIdHigh | .getChipIdLow | .getChipId | .resetCpld | .initCam | .setFormat _ | .setJpegSize _ | .startCapture
  | .captureComplete | .readFifoLength | .flushFifo | .clearFifoFlag | .burstOpen | .burstNext | .burstClose => false

/-! ### The end of a command -/

/-- The state with a command's response given: ERR, RESULT and the response that shows them (R80). -/
def State.answered (e : Err) (r : Word) (s : State) : State :=
  { s with err := e, result := r, responses := s.responses ++ [⟨e.code, r⟩] }

/-- The commands of a list, one after another, each from the state the one before it left (R50). -/
def runAll (is : List Instr) (s : State) : Result :=
  match is with
  | [] => .next s
  | i :: rest =>
    match exec i s with
    | .next t => runAll rest t
    | .fault f => .fault f
    | .refused r => .refused r

/-- The state with a command refused (R172): ERR, S_REFUSED and the response; RESULT and all else as before. -/
def State.turnedAway (e : Err) (s : State) : State := State.answered e s.result { s with sRefused := true }

/-- The refusal codes: 1 to 4 (R171). -/
def refusalCodes : List Err := [.illegal, .unbound, .bound, .lease]

/-- A command's encoding: the word of these four fields, `op` first, decodes to it (R70 to R73). -/
def encodedAs (i : Instr) (op f2 f1 f0 : Byte) : Prop := decode (wordOf op f2 f1 f0) = .ok i

/-- A word with the command's opcode and a non-zero bit in a field its format does not use is refused with `E_ILLEGAL`, whatever
the state of the block (R74). -/
def malformedIsIllegal (i : Instr) : Prop :=
  ∀ (w : Word) (s : State) (rest : List HostAct), fieldOp w = i.row.op → i.row.format.unusedZero w = false →
    s.phase = .idle → s.inputs = .command w :: rest →
    step s = .next (State.turnedAway .illegal { s with inputs := rest })

/-- `E_UNBOUND` while BOUND = 0 (R175). -/
def refusedUnbound (i : Instr) : Prop :=
  ∀ s : State, s.phase = .idle → s.bound = false → exec i s = .next (s.turnedAway .unbound)

/-- `E_LEASE` while BURST has the given value, for operands the enumeration check admits (R176). -/
def refusedLease (i : Instr) (burst : Bool) : Prop :=
  ∀ (s : State) (d : Driver), s.phase = .idle → s.driver = some d → enumOk i s.cfg d.model = true → s.burst = burst →
    exec i s = .next (s.turnedAway .lease)

/-- The refusals the rules of the bus commands list: `E_ILLEGAL` (word shape), `E_UNBOUND`, `E_LEASE` while BURST = 1. -/
def busRefusals (i : Instr) : Prop := malformedIsIllegal i ∧ refusedUnbound i ∧ refusedLease i true

/-- The same for the two commands of a live reader: `E_LEASE` while BURST = 0. -/
def readerRefusals (i : Instr) : Prop := malformedIsIllegal i ∧ refusedUnbound i ∧ refusedLease i false

/-! ### The capture-state machine as a table (R140) -/

/-- The states in which a command is legal (R140). -/
def legalIn (i : Instr) : List CapState :=
  match i with
  | .initCam => [.reset, .configured]
  | .setFormat _ | .setJpegSize _ | .startCapture => [.configured]
  | .captureComplete => [.capturing, .frameReady]
  | .readFifoLength | .burstOpen => [.frameReady]
  | .flushFifo | .clearFifoFlag => [.configured, .frameReady]
  | .sensorWr _ _ => [.uninitialized, .reset, .configured, .frameReady]
  | .bind _ _ | .release | .status | .setdly _ | .writeReg _ _ | .readReg _ | .setBit _ _ | .clearBit _ _ | .getBit _ _
  | .sensorRd _ | .getChipIdHigh | .getChipIdLow | .getChipId | .resetCpld | .burstNext | .burstClose =>
    [.uninitialized, .reset, .configured, .capturing, .frameReady]

/-- CAP after a legal execution that returned `result`, from CAP `c` (R140). -/
def capAfter (i : Instr) (result : Word) (c : CapState) : CapState :=
  match i with
  | .bind _ _ | .release => .uninitialized
  | .resetCpld => .reset
  | .initCam | .flushFifo | .clearFifoFlag => .configured
  | .startCapture => .capturing
  | .captureComplete => if result = 1#32 then .frameReady else c
  | .status | .setdly _ | .writeReg _ _ | .readReg _ | .setBit _ _ | .clearBit _ _ | .getBit _ _ | .sensorRd _ | .sensorWr _ _
  | .getChipIdHigh | .getChipIdLow | .getChipId | .setFormat _ | .setJpegSize _ | .readFifoLength | .burstOpen | .burstNext
  | .burstClose => c

/-! ### What the peripheral hears and answers -/

/-- The two bytes received in a register transaction, and the peripheral after it. -/
structure Heard where
  first : Byte
  second : Byte
  after : Peripheral
  deriving DecidableEq, Repr

/-- A transaction of two transfers (R79) as the peripheral sees it. -/
def Peripheral.hears (P : Params) (out1 out2 : Byte) (p : Peripheral) : Heard :=
  let a := p.csLow.xfer P out1
  let b := a.2.xfer P out2
  ⟨a.1, b.1, b.2.csHigh⟩

/-- The events of a register write and of a register read (R79). -/
def regEvents (out1 out2 : Byte) (h : Heard) : List Event := [.csLow, .xfer out1 h.first, .xfer out2 h.second, .csHigh]

/-- What a vendor sequence leaves on the wire, in SR, in TMP and in the peripheral. -/
structure Wire where
  events : List Event
  sr : Byte
  tmp : Byte
  periph : Peripheral
  deriving DecidableEq, Repr

/-- Events put before those of the rest of a sequence. -/
def Wire.preceded (es : List Event) (w : Wire) : Wire := { w with events := es ++ w.events }

/-- The events of a set-bit or clear-bit step (R122, R142): a register read, then a register write of the byte read, modified. -/
def vendorModify (P : Params) (a : Byte) (f : Byte → Byte) (p : Peripheral) : Wire :=
  let h := p.hears P (a &&& ~~~P.WRITE_BIT) P.DUMMY
  let g := h.after.hears P (a ||| P.WRITE_BIT) (f h.second)
  ⟨regEvents (a &&& ~~~P.WRITE_BIT) P.DUMMY h ++ regEvents (a ||| P.WRITE_BIT) (f h.second) g, g.second, h.second, g.after⟩

/-- What R142 says a vendor sequence puts on the wire: each step in its place, and nothing else. -/
def vendorWire (P : Params) (seq : List VendorStep) (sr tmp : Byte) (p : Peripheral) : Wire :=
  match seq with
  | [] => ⟨[], sr, tmp, p⟩
  | .sw a v :: rest => (vendorWire P rest sr tmp (p.sbWrite a v)).preceded [.sbWr a v]
  | .rw a v :: rest =>
    let h := p.hears P (a ||| P.WRITE_BIT) v
    (vendorWire P rest h.second tmp h.after).preceded (regEvents (a ||| P.WRITE_BIT) v h)
  | .rs a m :: rest =>
    let w := vendorModify P a (fun r => r ||| m) p
    (vendorWire P rest w.sr w.tmp w.periph).preceded w.events
  | .rc a m :: rest =>
    let w := vendorModify P a (fun r => r &&& ~~~m) p
    (vendorWire P rest w.sr w.tmp w.periph).preceded w.events
  | .dl ms :: rest => (vendorWire P rest sr tmp p).preceded [.delay ms]

/-! ### Laws of a working camera (R52): premises of claims, never built into the block -/

/-- What a register read of `a` returns (R79). -/
def Peripheral.holds (P : Params) (a : Byte) (p : Peripheral) : Byte := (p.hears P (a &&& ~~~P.WRITE_BIT) P.DUMMY).second

/-- L-RT at one address and one value: a register write, then a register read, returns the value written. A law for every value is
asked of a register with `∀ v`; of an oracle, whose script answers the writes that are made, for the value that is written. -/
def Peripheral.roundTrips (P : Params) (a v : Byte) (p : Peripheral) : Prop :=
  (p.hears P (a ||| P.WRITE_BIT) v).after.holds P a = v

/-- L-SET at one address and mask: after `set_bit(a, m)` every bit of `m` reads 1, so `get_bit(a, m)` is true unless `m` is empty,
where the law says nothing (90_conflicts.md C8). -/
def Peripheral.setsBits (P : Params) (a m : Byte) (p : Peripheral) : Prop :=
  (vendorModify P a (fun r => r ||| m) p).periph.holds P a &&& m = m

/-- L-CLR at one address and mask: after `clear_bit(a, m)` every bit of `m` reads 0. -/
def Peripheral.clearsBits (P : Params) (a m : Byte) (p : Peripheral) : Prop :=
  (vendorModify P a (fun r => r &&& ~~~m) p).periph.holds P a &&& m = 0#8

/-- The bytes of `n` dummy transfers inside a burst, and the peripheral after them. -/
def Peripheral.streams (P : Params) (n : Nat) (p : Peripheral) : List Byte × Peripheral :=
  match n with
  | 0 => ([], p)
  | k + 1 =>
    let a := p.xfer P P.DUMMY
    let r := Peripheral.streams P k a.2
    (a.1 :: r.1, r.2)

/-- L-BURST for a frame: after a burst-read command the k-th dummy transfer returns byte k of the frame, for every number of
transfers up to the frame's length. -/
def Peripheral.burstsInOrder (P : Params) (frame : List Byte) (p : Peripheral) : Prop :=
  ∀ n, n ≤ frame.length → ((p.csLow.xfer P P.BURST_CMD).2.streams P n).1 = frame.take n

/-- L-ID: the answers to the chip-id pair of a working OV5642. -/
def Peripheral.identifies (m : ModelInfo) (p : Peripheral) : Prop :=
  (p.sbRead m.A_CHIPID_HIGH).1 = 0x56#8 ∧ ((p.sbRead m.A_CHIPID_HIGH).2.sbRead m.A_CHIPID_LOW).1 = 0x42#8

/-- The registers at which the double is plain storage: every index but those of `A_TRIG`, the three FIFO-size registers and
`BURST_CMD` (R59). -/
def plainRegister (P : Params) (a : Byte) : Bool :=
  addrR P a != addrR P P.A_TRIG && addrR P a != addrR P P.A_FIFO_SIZE1 && addrR P a != addrR P P.A_FIFO_SIZE2
    && addrR P a != addrR P P.A_FIFO_SIZE3 && addrR P a != P.BURST_CMD

end Sys2Proof.Machine
end

