-- ==== Sys2Proof/Certificates/Slice0/Obligations.lean ====
section
/-! DEFINITION. The statements for the provers. Each docstring names the rules of the spec it formalises. Every statement about a
state holds for every parameter table (`State.cfg`) and every peripheral, unless it says which; none rests on a default of R5,
on a free value or on a reset value the model chose. -/

open Sys2Proof Sys2Proof.Machine

/-! ### Encoding (30_encoding.md) -/

/-- Every command's word decodes to that command, with every operand at every value (R70 to R73). -/
def Obligations.DecodeUndoesEncode : Prop :=
  ∀ i : Instr, decode (encode i) = .ok i

/-- A word that decodes is the one encoding of the command it decodes to (R70, R71: unused fields are 0). -/
def Obligations.DecodedWordIsTheCommandsEncoding : Prop :=
  ∀ (w : Word) (i : Instr), decode w = .ok i → encode i = w

/-- R71, R73, R74: the decoder rejects exactly the words that match no row of the opcode map under the row's mask. -/
def Obligations.DecoderRejectsExactlyTheUnlistedWords : Prop :=
  ∀ w : Word, (∃ e, decode w = .error e) ↔ ∀ r ∈ opcodeMap, w &&& r.format.mask ≠ r.pattern

/-- Words written out from the encodings of R71 to R73 (95_test_vectors.md 2.1) decode to the commands they stand for. -/
def Obligations.WrittenOutWordsDecode : Prop :=
  decode 0x01000A03#32 = .ok (.bind 10#8 3#8) ∧ decode 0x040003E8#32 = .ok (.setdly 1000#16) ∧
  decode 0x12000302#32 = .ok (.setBit 0x03#8 0x02#8) ∧ decode 0x1100C100#32 = .ok (.readReg 0xC1#8) ∧
  decode 0x20300A00#32 = .ok (.sensorRd 0x300A#16) ∧ decode 0x21300880#32 = .ok (.sensorWr 0x3008#16 0x80#8) ∧
  decode 0x33000006#32 = .ok (.setJpegSize 6#8) ∧ decode 0x42000000#32 = .ok .burstClose

/-- R76: the write form of an address has the `WRITE_BIT` position set, the read form has it clear, every other bit is the
address's own, and `a` and `a ^ WRITE_BIT` give the same two bytes. -/
def Obligations.AddressByteCarriesTheDirection : Prop :=
  ∀ (P : Params) (a : Byte) (k : Nat),
    (addrW P a).getLsbD k = (a.getLsbD k || P.WRITE_BIT.getLsbD k) ∧
    (addrR P a).getLsbD k = (a.getLsbD k && !P.WRITE_BIT.getLsbD k) ∧
    addrW P (a ^^^ P.WRITE_BIT) = addrW P a ∧ addrR P (a ^^^ P.WRITE_BIT) = addrR P a

/-- R115: one transfer is eight clock pulses and then `sclk` idle low; the rising edges find the bits of the byte sent on `mosi` and
of the byte received on `miso`, bit 7 first; shifted in, they give the byte back. What the data lines carry after the last falling
edge may be anything. -/
def Obligations.SerialBitsReassembleTheByte : Prop :=
  ∀ (out inp : Byte) (mosi miso : Bool),
    (serialise out inp mosi miso).map Lines.sclk =
      [false, true, false, true, false, true, false, true, false, true, false, true, false, true, false, true, false] ∧
    sampled false Lines.mosi (serialise out inp mosi miso) =
      [out.getLsbD 7, out.getLsbD 6, out.getLsbD 5, out.getLsbD 4, out.getLsbD 3, out.getLsbD 2, out.getLsbD 1, out.getLsbD 0] ∧
    sampled false Lines.miso (serialise out inp mosi miso) =
      [inp.getLsbD 7, inp.getLsbD 6, inp.getLsbD 5, inp.getLsbD 4, inp.getLsbD 3, inp.getLsbD 2, inp.getLsbD 1, inp.getLsbD 0] ∧
    received Lines.mosi (serialise out inp mosi miso) = out ∧ received Lines.miso (serialise out inp mosi miso) = inp

/-! ### One step -/

/-- When the word on the command port decodes and the block is IDLE, the step is the meaning of the decoded command, the word
taken off the port (R60, R170). -/
def Obligations.StepRunsTheDecodedCommand : Prop :=
  ∀ (s : State) (w : Word) (rest : List HostAct) (i : Instr),
    s.phase = .idle → s.inputs = .command w :: rest → decode w = .ok i → step s = exec i { s with inputs := rest }

/-- R74: a word that matches no row is refused with `E_ILLEGAL`, with no event and no state change but ERR and S_REFUSED; the
all-zero and the all-ones words are such words. -/
def Obligations.IllegalWordsAreRefused : Prop :=
  (∀ (s : State) (w : Word) (rest : List HostAct), s.phase = .idle → s.inputs = .command w :: rest →
    (∀ r ∈ opcodeMap, w &&& r.format.mask ≠ r.pattern) →
    step s = .next (State.turnedAway .illegal { s with inputs := rest })) ∧
  (∀ r ∈ opcodeMap, 0x00000000#32 &&& r.format.mask ≠ r.pattern) ∧
  (∀ r ∈ opcodeMap, 0xFFFFFFFF#32 &&& r.format.mask ≠ r.pattern)

/-- R30, R190, R192: block reset in any state, in any phase. Every register the spec gives a reset value has it, the line is not
driven, the trace is empty, the parameters stay, and a peripheral that is in no transaction is left as it was. That one in an open
transaction is shown one rise of chip-select, and nothing else, is the model's choice (log entry 15). -/
def Obligations.BlockResetGivesTheResetValues : Prop :=
  ∀ (s : State) (rest : List HostAct), s.inputs = .reset :: rest →
    ∃ t, step s = .next t ∧ t.bound = false ∧ t.cs = true ∧ t.csN = none ∧ t.txn = false ∧ t.burst = false ∧
      t.cap = .uninitialized ∧ t.result = 0#32 ∧ t.tResetMs = s.cfg.T_RESET_MS_DEFAULT ∧ t.err = .ok ∧
      t.sRefused = false ∧ t.sPrecond = false ∧ t.sSbaddr = false ∧ t.sRawmgd = false ∧ t.phase = .idle ∧ t.trace = [] ∧
      t.cfg = s.cfg ∧ t.inputs = rest ∧ (s.txn = false → t.periph = s.periph) ∧ (s.txn = true → t.periph = s.periph.csHigh)

/-- The machine right after reset (R30) with the one default that is the source's own: T_RESET_MS = 100. -/
def Obligations.ResetStateHasTheSpecsValues : Prop :=
  State.reset.bound = false ∧ State.reset.cs = true ∧ State.reset.csN = none ∧ State.reset.txn = false ∧
  State.reset.burst = false ∧ State.reset.cap = .uninitialized ∧ State.reset.result = 0#32 ∧ State.reset.tResetMs = 100#16 ∧
  State.reset.err = .ok ∧ State.reset.sRefused = false ∧ State.reset.sPrecond = false ∧ State.reset.sSbaddr = false ∧
  State.reset.sRawmgd = false ∧ State.reset.phase = .idle ∧ State.reset.trace = []

/-! ### Refusals (60_exceptions.md) -/

/-- R175: while BOUND = 0 every command but BIND, STATUS and SETDLY is refused with `E_UNBOUND`, and those three are executed
(BIND with a valid model); while BOUND = 1 a BIND (of a valid model) is refused with `E_BOUND`. -/
def Obligations.OwnershipIsCheckedAtRunTime : Prop :=
  ∀ s : State, s.phase = .idle →
    (s.bound = false → ∀ i : Instr, needsNoDriver i = false → exec i s = .next (s.turnedAway .unbound)) ∧
    (s.bound = false → ∀ pin model : Byte, s.cfg.modelValid model = true →
      ∃ t, exec (.bind pin model) s = .next t ∧ t.err = .ok) ∧
    (∃ t, exec .status s = .next t ∧ t.err = .ok) ∧
    (∀ ms : Half, ∃ t, exec (.setdly ms) s = .next t ∧ t.err = .ok) ∧
    (s.bound = true → ∀ pin model : Byte, s.cfg.modelValid model = true →
      exec (.bind pin model) s = .next (s.turnedAway .bound))

/-- R176: while BURST = 1 every command that needs the driver, but BURST_NEXT and BURST_CLOSE, is refused with `E_LEASE` (an
operand outside its enumeration is refused before that, R177), while BURST = 0 those two are; STATUS and SETDLY never are; a
BIND while BURST = 1 is refused with `E_BOUND`. -/
def Obligations.LeaseIsCheckedAtRunTime : Prop :=
  ∀ (s : State) (d : Driver), s.Inv → s.driver = some d →
    (s.burst = true → ∀ i : Instr, needsNoDriver i = false → i ≠ .burstNext → i ≠ .burstClose →
      enumOk i s.cfg d.model = true → exec i s = .next (s.turnedAway .lease)) ∧
    (s.burst = false → exec .burstNext s = .next (s.turnedAway .lease) ∧ exec .burstClose s = .next (s.turnedAway .lease)) ∧
    (∃ t, exec .status s = .next t ∧ t.err = .ok) ∧
    (∀ ms : Half, ∃ t, exec (.setdly ms) s = .next t ∧ t.err = .ok) ∧
    (s.burst = true → ∀ pin model : Byte, s.cfg.modelValid model = true →
      exec (.bind pin model) s = .next (s.turnedAway .bound))

/-- R75: BIND with an invalid model is refused with `E_ILLEGAL` in every state, SET_FORMAT and SET_JPEG_SIZE with a value outside
the bound model's enumeration whatever BURST is; no command refuses any other operand value. -/
def Obligations.EnumeratedOperandsAreChecked : Prop :=
  (∀ (s : State) (pin model : Byte), s.phase = .idle → s.cfg.modelValid model = false →
    exec (.bind pin model) s = .next (s.turnedAway .illegal)) ∧
  (∀ (s : State) (d : Driver) (fmt : Byte), s.phase = .idle → s.driver = some d → s.cfg.fmtValid d.model fmt = false →
    exec (.setFormat fmt) s = .next (s.turnedAway .illegal)) ∧
  (∀ (s : State) (d : Driver) (size : Byte), s.phase = .idle → s.driver = some d → s.cfg.sizeValid d.model size = false →
    exec (.setJpegSize size) s = .next (s.turnedAway .illegal)) ∧
  (∀ (i : Instr) (s t : State), (∀ pin model, i ≠ .bind pin model) → (∀ f, i ≠ .setFormat f) → (∀ z, i ≠ .setJpegSize z) →
    exec i s = .next t → t.err ≠ .illegal)

/-- R172: a command that ends with a refusal code has changed ERR and S_REFUSED and nothing else; the response is (code,
RESULT). -/
def Obligations.RefusedCommandHasDoneNothing : Prop :=
  ∀ (i : Instr) (s t : State), s.phase = .idle → exec i s = .next t → t.err ∈ refusalCodes → t = s.turnedAway t.err

/-! ### Lifecycle (40_lifecycle.md) -/

/-- R100: BIND from BOUND = 0 with a valid model; a word with `f2 != 0` and an invalid model are `E_ILLEGAL`, BOUND = 1 is
`E_BOUND`. -/
def Obligations.BindCreatesTheInstance : Prop :=
  ∀ pin model : Byte, encodedAs (.bind pin model) 0x01#8 0#8 pin model ∧ malformedIsIllegal (.bind pin model) ∧
    (∀ s : State, s.phase = .idle → s.cfg.modelValid model = false →
      exec (.bind pin model) s = .next (s.turnedAway .illegal)) ∧
    (∀ s : State, s.phase = .idle → s.cfg.modelValid model = true → s.bound = true →
      exec (.bind pin model) s = .next (s.turnedAway .bound)) ∧
    (∀ s : State, s.phase = .idle → s.cfg.modelValid model = true → s.bound = false →
      exec (.bind pin model) s = .next (State.answered .ok 0#32
        { s with driver := some ⟨pin, model⟩, cs := true, txn := false, burst := false, cap := .uninitialized,
                 trace := s.trace ++ [.acq pin] }))

/-- R101: RELEASE returns the pin, ends the instance, and leaves the sticky flags and T_RESET_MS as they are. -/
def Obligations.ReleaseGivesThePinBack : Prop :=
  encodedAs .release 0x02#8 0#8 0#8 0#8 ∧ busRefusals .release ∧
  ∀ (s : State) (d : Driver), s.Ready d →
    exec .release s = .next (State.answered .ok (d.pin.setWidth 32)
      { s with driver := none, cap := .uninitialized, cs := true, trace := s.trace ++ [.rel d.pin] })

/-- R102, R24: STATUS is executed in every state, with no event, and returns the fields of the state before it, each at its
place. -/
def Obligations.StatusReportsTheStateBeforeIt : Prop :=
  encodedAs .status 0x03#8 0#8 0#8 0#8 ∧ malformedIsIllegal .status ∧
  ∀ s : State, s.phase = .idle → ∃ w : Word, exec .status s = .next (s.answered .ok w) ∧
    w.getLsbD 0 = s.bound ∧ w.getLsbD 1 = s.txn ∧ w.getLsbD 2 = s.burst ∧ w.getLsbD 3 = s.cs ∧
    w.extractLsb' 4 3 = s.cap.code ∧ w.getLsbD 7 = false ∧ w.extractLsb' 8 4 = s.err.code ∧ w.getLsbD 12 = s.sRefused ∧
    w.getLsbD 13 = s.sPrecond ∧ w.getLsbD 14 = s.sSbaddr ∧ w.getLsbD 15 = s.sRawmgd ∧ w.extractLsb' 16 16 = 0#16

/-- R103: SETDLY is executed whatever BOUND and BURST are, accepts every count, and writes T_RESET_MS alone. -/
def Obligations.SetdlyWritesTheDelay : Prop :=
  ∀ ms : Half, encodedAs (.setdly ms) 0x04#8 0#8 (hiByte ms) (loByte ms) ∧ malformedIsIllegal (.setdly ms) ∧
    ∀ s : State, s.phase = .idle → exec (.setdly ms) s = .next (State.answered .ok 0#32 { s with tResetMs := ms })

/-! ### Register access (42_register_access.md) -/

/-- R120: the four events of WRITE_REG, RESULT 0, and `E_RAWMGD` for an address that R126 calls managed. -/
def Obligations.WriteRegPutsAddressAndValueOnTheWire : Prop :=
  ∀ addr value : Byte, encodedAs (.writeReg addr value) 0x10#8 0#8 addr value ∧ busRefusals (.writeReg addr value) ∧
    ∀ (s : State) (d : Driver), s.Ready d →
      let h := s.periph.hears s.cfg (addr ||| s.cfg.WRITE_BIT) value
      let low := fun a : Byte => a &&& ~~~s.cfg.WRITE_BIT
      let m := low addr == low s.cfg.A_RESET || low addr == low s.cfg.A_CAPTURE_TRIG || low addr == low s.cfg.A_FIFO_CTRL
      exec (.writeReg addr value) s = .next (State.answered (if m then .rawmgd else .ok) 0#32
        { s with sr := h.second, periph := h.after, sRawmgd := s.sRawmgd || m,
                 trace := s.trace ++
                   [.csLow, .xfer (addr ||| s.cfg.WRITE_BIT) h.first, .xfer value h.second, .csHigh] })

/-- R121: READ_REG returns the byte received in the dummy transfer, zero-extended. -/
def Obligations.ReadRegReturnsTheDummyTransfersByte : Prop :=
  ∀ addr : Byte, encodedAs (.readReg addr) 0x11#8 0#8 addr 0#8 ∧ busRefusals (.readReg addr) ∧
    ∀ (s : State) (d : Driver), s.Ready d →
      let h := s.periph.hears s.cfg (addr &&& ~~~s.cfg.WRITE_BIT) s.cfg.DUMMY
      exec (.readReg addr) s = .next (State.answered .ok (h.second.setWidth 32)
        { s with sr := h.second, periph := h.after,
                 trace := s.trace ++
                   [.csLow, .xfer (addr &&& ~~~s.cfg.WRITE_BIT) h.first, .xfer s.cfg.DUMMY h.second, .csHigh] })

/-- R122 (managed addresses: R126): SET_BIT reads, keeps the byte in TMP, and writes it back with the mask's bits set; eight events. -/
def Obligations.SetBitWritesBackTheByteReadOrMask : Prop :=
  ∀ addr mask : Byte, encodedAs (.setBit addr mask) 0x12#8 0#8 addr mask ∧ busRefusals (.setBit addr mask) ∧
    ∀ (s : State) (d : Driver), s.Ready d →
      let h := s.periph.hears s.cfg (addr &&& ~~~s.cfg.WRITE_BIT) s.cfg.DUMMY
      let g := h.after.hears s.cfg (addr ||| s.cfg.WRITE_BIT) (h.second ||| mask)
      let low := fun a : Byte => a &&& ~~~s.cfg.WRITE_BIT
      let m := low addr == low s.cfg.A_RESET || low addr == low s.cfg.A_CAPTURE_TRIG || low addr == low s.cfg.A_FIFO_CTRL
      exec (.setBit addr mask) s = .next (State.answered (if m then .rawmgd else .ok) 0#32
        { s with sr := g.second, tmp := h.second, periph := g.after, sRawmgd := s.sRawmgd || m,
                 trace := s.trace ++
                   [.csLow, .xfer (addr &&& ~~~s.cfg.WRITE_BIT) h.first, .xfer s.cfg.DUMMY h.second, .csHigh,
                    .csLow, .xfer (addr ||| s.cfg.WRITE_BIT) g.first, .xfer (h.second ||| mask) g.second, .csHigh] })

/-- R123 (managed addresses: R126): CLEAR_BIT writes the byte read back with the mask's bits clear. -/
def Obligations.ClearBitWritesBackTheByteReadAndNotMask : Prop :=
  ∀ addr mask : Byte, encodedAs (.clearBit addr mask) 0x13#8 0#8 addr mask ∧ busRefusals (.clearBit addr mask) ∧
    ∀ (s : State) (d : Driver), s.Ready d →
      let h := s.periph.hears s.cfg (addr &&& ~~~s.cfg.WRITE_BIT) s.cfg.DUMMY
      let g := h.after.hears s.cfg (addr ||| s.cfg.WRITE_BIT) (h.second &&& ~~~mask)
      let low := fun a : Byte => a &&& ~~~s.cfg.WRITE_BIT
      let m := low addr == low s.cfg.A_RESET || low addr == low s.cfg.A_CAPTURE_TRIG || low addr == low s.cfg.A_FIFO_CTRL
      exec (.clearBit addr mask) s = .next (State.answered (if m then .rawmgd else .ok) 0#32
        { s with sr := g.second, tmp := h.second, periph := g.after, sRawmgd := s.sRawmgd || m,
                 trace := s.trace ++
                   [.csLow, .xfer (addr &&& ~~~s.cfg.WRITE_BIT) h.first, .xfer s.cfg.DUMMY h.second, .csHigh,
                    .csLow, .xfer (addr ||| s.cfg.WRITE_BIT) g.first, .xfer (h.second &&& ~~~mask) g.second, .csHigh] })

/-- R124: GET_BIT returns 1 when any bit of the mask is set in the byte read, else 0, and raises no flag. -/
def Obligations.GetBitReportsAnyBitOfTheMask : Prop :=
  ∀ addr mask : Byte, encodedAs (.getBit addr mask) 0x14#8 0#8 addr mask ∧ busRefusals (.getBit addr mask) ∧
    ∀ (s : State) (d : Driver), s.Ready d →
      let h := s.periph.hears s.cfg (addr &&& ~~~s.cfg.WRITE_BIT) s.cfg.DUMMY
      exec (.getBit addr mask) s = .next (State.answered .ok (if h.second &&& mask = 0#8 then 0#32 else 1#32)
        { s with sr := h.second, periph := h.after,
                 trace := s.trace ++
                   [.csLow, .xfer (addr &&& ~~~s.cfg.WRITE_BIT) h.first, .xfer s.cfg.DUMMY h.second, .csHigh] })

/-! ### Sensor bridge (43_sensor_bridge.md) -/

/-- R131, R133: one opaque read exchange at every address; `E_SBADDR` at an invalid one. -/
def Obligations.SensorRdMakesOneExchange : Prop :=
  ∀ addr : Half, encodedAs (.sensorRd addr) 0x20#8 (hiByte addr) (loByte addr) 0#8 ∧ busRefusals (.sensorRd addr) ∧
    ∀ (s : State) (d : Driver), s.Ready d →
      let a := s.periph.sbRead addr
      let bad := !s.cfg.sensorAddrValid d.model addr
      exec (.sensorRd addr) s = .next (State.answered (if bad then .sbaddr else .ok) (a.1.setWidth 32)
        { s with periph := a.2, sSbaddr := s.sSbaddr || bad, trace := s.trace ++ [.sbRd addr a.1] })

/-- R132, R133, R177: one opaque write exchange; `E_PRECOND` while Capturing, `E_SBADDR` at an invalid address, both sticky flags
when both hold, and ERR the lower code. Every word with this opcode is well formed; the refusals are `E_UNBOUND` and `E_LEASE`. -/
def Obligations.SensorWrMakesOneExchange : Prop :=
  (∀ w : Word, fieldOp w = 0x21#8 → ∃ (addr : Half) (value : Byte), decode w = .ok (.sensorWr addr value)) ∧
  ∀ (addr : Half) (value : Byte), encodedAs (.sensorWr addr value) 0x21#8 (hiByte addr) (loByte addr) value ∧
    refusedUnbound (.sensorWr addr value) ∧ refusedLease (.sensorWr addr value) true ∧
    ∀ (s : State) (d : Driver), s.Ready d →
      let pre := s.cap == .capturing
      let bad := !s.cfg.sensorAddrValid d.model addr
      exec (.sensorWr addr value) s =
        .next (State.answered (if pre then .precond else if bad then .sbaddr else .ok) 0#32
          { s with periph := s.periph.sbWrite addr value, sPrecond := s.sPrecond || pre, sSbaddr := s.sSbaddr || bad,
                   trace := s.trace ++ [.sbWr addr value] })

/-- R134, R135: each chip-id half is one exchange at the model's address, and raises no flag. -/
def Obligations.ChipIdHalvesAreReadAtTheModelsAddresses : Prop :=
  encodedAs .getChipIdHigh 0x22#8 0#8 0#8 0#8 ∧ busRefusals .getChipIdHigh ∧
  encodedAs .getChipIdLow 0x23#8 0#8 0#8 0#8 ∧ busRefusals .getChipIdLow ∧
  ∀ (s : State) (d : Driver), s.Ready d →
    (let a := s.periph.sbRead (s.cfg.info d.model).A_CHIPID_HIGH
     exec .getChipIdHigh s = .next (State.answered .ok (a.1.setWidth 32)
       { s with periph := a.2, trace := s.trace ++ [.sbRd (s.cfg.info d.model).A_CHIPID_HIGH a.1] })) ∧
    (let a := s.periph.sbRead (s.cfg.info d.model).A_CHIPID_LOW
     exec .getChipIdLow s = .next (State.answered .ok (a.1.setWidth 32)
       { s with periph := a.2, trace := s.trace ++ [.sbRd (s.cfg.info d.model).A_CHIPID_LOW a.1] }))

/-- R136: the chip id is `(high << 8) | low`, high read first; bits 31:16 are 0. -/
def Obligations.ChipIdCombinesHighAndLow : Prop :=
  encodedAs .getChipId 0x24#8 0#8 0#8 0#8 ∧ busRefusals .getChipId ∧
  ∀ (s : State) (d : Driver), s.Ready d →
    let m := s.cfg.info d.model
    let a := s.periph.sbRead m.A_CHIPID_HIGH
    let b := a.2.sbRead m.A_CHIPID_LOW
    exec .getChipId s = .next (State.answered .ok (0#16 ++ a.1 ++ b.1)
      { s with periph := b.2, trace := s.trace ++ [.sbRd m.A_CHIPID_HIGH a.1, .sbRd m.A_CHIPID_LOW b.1] })

/-! ### Capture sequencer (44_capture_sequencer.md) -/

/-- R143: the ten events of RESET_CPLD, both delays of the length T_RESET_MS, CAP Reset from every state, no flag. -/
def Obligations.ResetCpldPulsesHighThenLow : Prop :=
  encodedAs .resetCpld 0x30#8 0#8 0#8 0#8 ∧ busRefusals .resetCpld ∧
  ∀ (s : State) (d : Driver), s.Ready d →
    let aw := s.cfg.A_RESET ||| s.cfg.WRITE_BIT
    let h := s.periph.hears s.cfg aw s.cfg.V_RESET_HIGH
    let g := h.after.hears s.cfg aw s.cfg.V_RESET_LOW
    exec .resetCpld s = .next (State.answered .ok 0#32
      { s with cap := .reset, sr := g.second, periph := g.after,
               trace := s.trace ++
                 [.csLow, .xfer aw h.first, .xfer s.cfg.V_RESET_HIGH h.second, .csHigh, .delay s.tResetMs,
                  .csLow, .xfer aw g.first, .xfer s.cfg.V_RESET_LOW g.second, .csHigh, .delay s.tResetMs] })

/-- R144, R142: INIT_CAM puts the model's bring-up sequence on the wire, whatever the sequence is, in every CAP state; from Reset
and Configured CAP becomes Configured, elsewhere S_PRECOND is set and CAP stays. That an RS or RC step passes through TMP is the
model's reading (log entry 12). -/
def Obligations.InitCamRunsTheBringUpSequence : Prop :=
  encodedAs .initCam 0x31#8 0#8 0#8 0#8 ∧ busRefusals .initCam ∧
  ∀ (s : State) (d : Driver), s.Ready d →
    let w := vendorWire s.cfg (s.cfg.initSeq d.model) s.sr s.tmp s.periph
    let ok := s.cap == .reset || s.cap == .configured
    exec .initCam s = .next (State.answered (if ok then .ok else .precond) 0#32
      { s with cap := if ok then .configured else s.cap, sr := w.sr, tmp := w.tmp, periph := w.periph,
               sPrecond := s.sPrecond || !ok, trace := s.trace ++ w.events })

/-- R145, R142: SET_FORMAT puts the format's sequence on the wire; legal in Configured; CAP stays. TMP as log entry 12 says. -/
def Obligations.SetFormatRunsTheFormatSequence : Prop :=
  ∀ fmt : Byte, encodedAs (.setFormat fmt) 0x32#8 0#8 0#8 fmt ∧ busRefusals (.setFormat fmt) ∧
    (∀ (s : State) (d : Driver), s.phase = .idle → s.driver = some d → s.cfg.fmtValid d.model fmt = false →
      exec (.setFormat fmt) s = .next (s.turnedAway .illegal)) ∧
    ∀ (s : State) (d : Driver), s.Ready d → s.cfg.fmtValid d.model fmt = true →
      let w := vendorWire s.cfg (s.cfg.formatSeq d.model fmt) s.sr s.tmp s.periph
      let ok := s.cap == .configured
      exec (.setFormat fmt) s = .next (State.answered (if ok then .ok else .precond) 0#32
        { s with sr := w.sr, tmp := w.tmp, periph := w.periph, sPrecond := s.sPrecond || !ok, trace := s.trace ++ w.events })

/-- R146, R142: SET_JPEG_SIZE puts the size's sequence on the wire; legal in Configured; CAP stays. TMP as log entry 12 says. -/
def Obligations.SetJpegSizeRunsTheSizeSequence : Prop :=
  ∀ size : Byte, encodedAs (.setJpegSize size) 0x33#8 0#8 0#8 size ∧ busRefusals (.setJpegSize size) ∧
    (∀ (s : State) (d : Driver), s.phase = .idle → s.driver = some d → s.cfg.sizeValid d.model size = false →
      exec (.setJpegSize size) s = .next (s.turnedAway .illegal)) ∧
    ∀ (s : State) (d : Driver), s.Ready d → s.cfg.sizeValid d.model size = true →
      let w := vendorWire s.cfg (s.cfg.sizeSeq d.model size) s.sr s.tmp s.periph
      let ok := s.cap == .configured
      exec (.setJpegSize size) s = .next (State.answered (if ok then .ok else .precond) 0#32
        { s with sr := w.sr, tmp := w.tmp, periph := w.periph, sPrecond := s.sPrecond || !ok, trace := s.trace ++ w.events })

/-- R147: START_CAPTURE writes the trigger register once; from Configured CAP becomes Capturing. -/
def Obligations.StartCaptureWritesTheTrigger : Prop :=
  encodedAs .startCapture 0x34#8 0#8 0#8 0#8 ∧ busRefusals .startCapture ∧
  ∀ (s : State) (d : Driver), s.Ready d →
    let aw := s.cfg.A_CAPTURE_TRIG ||| s.cfg.WRITE_BIT
    let h := s.periph.hears s.cfg aw s.cfg.V_CAPTURE_START
    let ok := s.cap == .configured
    exec .startCapture s = .next (State.answered (if ok then .ok else .precond) 0#32
      { s with cap := if ok then .capturing else s.cap, sr := h.second, periph := h.after, sPrecond := s.sPrecond || !ok,
               trace := s.trace ++ [.csLow, .xfer aw h.first, .xfer s.cfg.V_CAPTURE_START h.second, .csHigh] })

/-- R148: CAPTURE_COMPLETE reads the done bit once; a 1 in Capturing or FrameReady gives FrameReady, nothing else moves CAP. -/
def Obligations.CaptureCompletePollsTheDoneBit : Prop :=
  encodedAs .captureComplete 0x35#8 0#8 0#8 0#8 ∧ busRefusals .captureComplete ∧
  ∀ (s : State) (d : Driver), s.Ready d →
    let ar := s.cfg.A_TRIG &&& ~~~s.cfg.WRITE_BIT
    let h := s.periph.hears s.cfg ar s.cfg.DUMMY
    let ok := s.cap == .capturing || s.cap == .frameReady
    let done := h.second &&& s.cfg.M_CAP_DONE != 0#8
    exec .captureComplete s = .next (State.answered (if ok then .ok else .precond) (if done then 1#32 else 0#32)
      { s with cap := if ok && done then .frameReady else s.cap, sr := h.second, periph := h.after,
               sPrecond := s.sPrecond || !ok,
               trace := s.trace ++ [.csLow, .xfer ar h.first, .xfer s.cfg.DUMMY h.second, .csHigh] })

/-- R149: READ_FIFO_LENGTH reads low, mid, high and returns `(high << 16) | (mid << 8) | low`, unmasked; legal in FrameReady; CAP
stays. -/
def Obligations.ReadFifoLengthAssemblesThreeReads : Prop :=
  encodedAs .readFifoLength 0x36#8 0#8 0#8 0#8 ∧ busRefusals .readFifoLength ∧
  ∀ (s : State) (d : Driver), s.Ready d →
    let P := s.cfg
    let r1 := P.A_FIFO_SIZE1 &&& ~~~P.WRITE_BIT
    let r2 := P.A_FIFO_SIZE2 &&& ~~~P.WRITE_BIT
    let r3 := P.A_FIFO_SIZE3 &&& ~~~P.WRITE_BIT
    let h := s.periph.hears P r1 P.DUMMY
    let g := h.after.hears P r2 P.DUMMY
    let k := g.after.hears P r3 P.DUMMY
    let ok := s.cap == .frameReady
    exec .readFifoLength s = .next (State.answered (if ok then .ok else .precond) (0#8 ++ k.second ++ g.second ++ h.second)
      { s with sr := k.second, periph := k.after, sPrecond := s.sPrecond || !ok,
               trace := s.trace ++
                 [.csLow, .xfer r1 h.first, .xfer P.DUMMY h.second, .csHigh,
                  .csLow, .xfer r2 g.first, .xfer P.DUMMY g.second, .csHigh,
                  .csLow, .xfer r3 k.first, .xfer P.DUMMY k.second, .csHigh] })

/-- R150: FLUSH_FIFO writes the flush value once; from Configured and FrameReady CAP becomes Configured. -/
def Obligations.FlushFifoWritesTheFlushValue : Prop :=
  encodedAs .flushFifo 0x37#8 0#8 0#8 0#8 ∧ busRefusals .flushFifo ∧
  ∀ (s : State) (d : Driver), s.Ready d →
    let aw := s.cfg.A_FIFO_CTRL ||| s.cfg.WRITE_BIT
    let h := s.periph.hears s.cfg aw s.cfg.V_FIFO_FLUSH
    let ok := s.cap == .configured || s.cap == .frameReady
    exec .flushFifo s = .next (State.answered (if ok then .ok else .precond) 0#32
      { s with cap := if ok then .configured else s.cap, sr := h.second, periph := h.after, sPrecond := s.sPrecond || !ok,
               trace := s.trace ++ [.csLow, .xfer aw h.first, .xfer s.cfg.V_FIFO_FLUSH h.second, .csHigh] })

/-- R151: CLEAR_FIFO_FLAG writes the clear-flag value once; from Configured and FrameReady CAP becomes Configured. -/
def Obligations.ClearFifoFlagWritesTheClearValue : Prop :=
  encodedAs .clearFifoFlag 0x38#8 0#8 0#8 0#8 ∧ busRefusals .clearFifoFlag ∧
  ∀ (s : State) (d : Driver), s.Ready d →
    let aw := s.cfg.A_FIFO_CTRL ||| s.cfg.WRITE_BIT
    let h := s.periph.hears s.cfg aw s.cfg.V_FIFO_CLEAR_FLAG
    let ok := s.cap == .configured || s.cap == .frameReady
    exec .clearFifoFlag s = .next (State.answered (if ok then .ok else .precond) 0#32
      { s with cap := if ok then .configured else s.cap, sr := h.second, periph := h.after, sPrecond := s.sPrecond || !ok,
               trace := s.trace ++ [.csLow, .xfer aw h.first, .xfer s.cfg.V_FIFO_CLEAR_FLAG h.second, .csHigh] })

/-- R140: the transition table over every command and every CAP state. A command that is not refused moves CAP as the table says
from a state in which it is legal; elsewhere it sets S_PRECOND, ends with `E_PRECOND` and leaves CAP. -/
def Obligations.CapFollowsTheTransitionTable : Prop :=
  ∀ (i : Instr) (s t : State), exec i s = .next t → t.err ∉ refusalCodes →
    (s.cap ∈ legalIn i → t.cap = capAfter i t.result s.cap ∧ t.sPrecond = s.sPrecond ∧ t.err ≠ .precond) ∧
    (s.cap ∉ legalIn i → t.cap = s.cap ∧ t.sPrecond = true ∧ t.err = .precond)

/-- R141: "The block never rejects an out-of-order command and never changes a wire byte because of CAP": two states that differ
in CAP alone give the same events, the same peripheral and, for every command but STATUS (which reports CAP), the same
RESULT. -/
def Obligations.CapNeverChangesTheWire : Prop :=
  ∀ (i : Instr) (s t : State) (c : CapState), exec i s = .next t →
    ∃ u, exec i { s with cap := c } = .next u ∧ u.trace = t.trace ∧ u.periph = t.periph ∧ (i ≠ .status → u.result = t.result)

/-! ### Burst reader (45_burst_reader.md) -/

/-- R160: BURST_OPEN opens a transaction with the burst command byte and leaves it open, in every CAP state; legal in FrameReady;
CAP stays. -/
def Obligations.BurstOpenLeavesTheTransactionOpen : Prop :=
  encodedAs .burstOpen 0x40#8 0#8 0#8 0#8 ∧ busRefusals .burstOpen ∧
  ∀ (s : State) (d : Driver), s.Ready d →
    let a := s.periph.csLow.xfer s.cfg s.cfg.BURST_CMD
    let ok := s.cap == .frameReady
    exec .burstOpen s = .next (State.answered (if ok then .ok else .precond) 0#32
      { s with cs := false, txn := true, burst := true, sr := a.1, periph := a.2, sPrecond := s.sPrecond || !ok,
               trace := s.trace ++ [.csLow, .xfer s.cfg.BURST_CMD a.1] })

/-- R161: BURST_NEXT is one dummy transfer; RESULT is the byte received; CAP is neither checked nor moved. -/
def Obligations.BurstNextReturnsTheNextByte : Prop :=
  encodedAs .burstNext 0x41#8 0#8 0#8 0#8 ∧ readerRefusals .burstNext ∧
  ∀ (s : State) (d : Driver), s.Bursting d →
    let a := s.periph.xfer s.cfg s.cfg.DUMMY
    exec .burstNext s = .next (State.answered .ok (a.1.setWidth 32)
      { s with sr := a.1, periph := a.2, trace := s.trace ++ [.xfer s.cfg.DUMMY a.1] })

/-- R162: BURST_CLOSE deasserts chip-select, after any number of bytes, and sends none. -/
def Obligations.BurstCloseDeassertsChipSelect : Prop :=
  encodedAs .burstClose 0x42#8 0#8 0#8 0#8 ∧ readerRefusals .burstClose ∧
  ∀ (s : State) (d : Driver), s.Bursting d →
    exec .burstClose s = .next (State.answered .ok 0#32
      { s with cs := true, txn := false, burst := false, periph := s.periph.csHigh, trace := s.trace ++ [.csHigh] })

/-- R163: while a reader is alive no command but BURST_NEXT and BURST_CLOSE puts an event on the wire, moves the peripheral or
ends the reader. -/
def Obligations.NothingInterruptsALiveReader : Prop :=
  ∀ (i : Instr) (s : State) (d : Driver), s.Bursting d → i ≠ .burstNext → i ≠ .burstClose →
    ∃ t, exec i s = .next t ∧ t.trace = s.trace ∧ t.periph = s.periph ∧ t.burst = true ∧ t.txn = true ∧ t.cs = false ∧
      t.driver = s.driver ∧ t.cap = s.cap

/-- R165: BURST_OPEN, N times BURST_NEXT, BURST_CLOSE from a bound block with no reader, in every CAP state, for every N: exactly
N + 3 events in order, the k-th BURST_NEXT returning the k-th byte the peripheral sends, chip-select high at the end and CAP as
before; outside FrameReady the BURST_OPEN, and it alone, ends with `E_PRECOND`. -/
def Obligations.BurstOfNBytesIsOneTransaction : Prop :=
  ∀ (n : Nat) (s : State) (d : Driver), s.Ready d →
    let a := s.periph.csLow.xfer s.cfg s.cfg.BURST_CMD
    let code := if s.cap = .frameReady then 0#4 else 5#4
    let bytes := (a.2.streams s.cfg n).1
    ∃ t, runAll (.burstOpen :: (List.replicate n .burstNext ++ [.burstClose])) s = .next t ∧ bytes.length = n ∧
      t.trace = s.trace ++ ([.csLow, .xfer s.cfg.BURST_CMD a.1] ++ bytes.map (fun b => .xfer s.cfg.DUMMY b) ++ [.csHigh]) ∧
      t.responses = s.responses ++
        ([⟨code, 0#32⟩] ++ bytes.map (fun b => ⟨0#4, b.setWidth 32⟩) ++ [⟨0#4, 0#32⟩]) ∧
      t.cs = true ∧ t.txn = false ∧ t.burst = false ∧ t.cap = s.cap

/-! ### Invariants and rules of the whole machine -/

/-- R26: every step keeps I1 to I5 at the command boundary, from every state that has them. -/
def Obligations.StepKeepsTheBoundaryInvariant : Prop :=
  ∀ s t : State, s.Inv → step s = .next t → t.Inv

/-- The reset state has the invariant of R26. -/
def Obligations.ResetMeetsTheBoundaryInvariant : Prop := State.reset.Inv

/-- R178, R80, R196: from a state with the invariant every command of every form ends in a next state, IDLE, with its one response
appended, so no micro-operation is called where R7 forbids it; chip-select is high after every command but an executed BURST_OPEN
and the commands inside a burst. -/
def Obligations.EveryCommandEndsWithOneResponse : Prop :=
  ∀ (i : Instr) (s : State), s.Inv →
    ∃ t, exec i s = .next t ∧ t.phase = .idle ∧ t.responses = s.responses ++ [⟨t.err.code, t.result⟩] ∧
      (s.burst = false → i ≠ .burstOpen → t.cs = true ∧ t.txn = false)

/-- R50: a command only appends to the trace. -/
def Obligations.CommandsOnlyAppendToTheTrace : Prop :=
  ∀ (i : Instr) (s t : State), exec i s = .next t → ∃ es, t.trace = s.trace ++ es

/-- R23: no command clears a sticky flag. -/
def Obligations.NoCommandClearsAStickyFlag : Prop :=
  ∀ (i : Instr) (s t : State), exec i s = .next t →
    (s.sRefused = true → t.sRefused = true) ∧ (s.sPrecond = true → t.sPrecond = true) ∧
    (s.sSbaddr = true → t.sSbaddr = true) ∧ (s.sRawmgd = true → t.sRawmgd = true)

/-- R182: only the raw commands raise S_RAWMGD or S_SBADDR. -/
def Obligations.OnlyRawCommandsRaiseTheRawFlags : Prop :=
  ∀ (i : Instr) (s t : State), exec i s = .next t → rawCommand i = false →
    t.sRawmgd = s.sRawmgd ∧ t.sSbaddr = s.sSbaddr

/-- R5: every parameter is "fixed at build time and never changed by a command", nor by block reset. -/
def Obligations.NoStepChangesAParameter : Prop :=
  ∀ s t : State, step s = .next t → t.cfg = s.cfg

/-- R75: every step keeps the bound model a valid one. -/
def Obligations.StepKeepsTheModelValid : Prop :=
  ∀ s t : State, s.modelKnown → step s = .next t → t.modelKnown

/-! ### The peripheral (20_memory.md) -/

/-- The model's form of the free bytes of R52 (DESIGN CHOICE, log entry 5; R52 itself says nothing of a script): an oracle gives the
bytes of its script in order, one for each byte the block receives, whatever the block sends. -/
def Obligations.OracleAnswersInOrder : Prop :=
  ∀ (P : Params) (x y : Byte) (q : List Byte) (n : Nat) (o1 o2 : Byte) (a : Half),
    (Peripheral.oracle (x :: y :: q) n).hears P o1 o2 = ⟨x, y, .oracle q (n + 2)⟩ ∧
    (Peripheral.oracle (x :: q) n).sbRead a = (x, .oracle q (n + 1))

/-- R54: every step keeps the double outside transactions exactly while TXN = 0, so no transfer reaches it there. That
a block reset inside a transaction puts it outside is the model's choice (log entry 15): R54 knows `CS_LOW` and `CS_HIGH` alone. -/
def Obligations.StepKeepsTheDoubleInStep : Prop :=
  ∀ s t : State, s.Inv → s.doubleFollows → step s = .next t → t.doubleFollows

/-- Every step keeps the double's memories in canonical form, which is the model's own representation of the two files of registers
of R53 (log entry 16); no rule of the spec speaks of it. -/
def Obligations.StepKeepsTheDoublesMemoriesCanonical : Prop :=
  ∀ s t : State, s.periph.wf → step s = .next t → t.periph.wf

/-- R56 to R59: with the double, WRITE_REG stores one control-register byte and no other byte of either space; SENSOR_WR stores one
sensor byte; the commands listed, which write no register, store nothing, nor do those of a live reader, when the double is in its
burst. -/
def Obligations.DoubleStoresOnlyTheByteWritten : Prop :=
  ∀ (s t : State) (d : Driver) (e : Double), s.Inv → s.driver = some d → s.periph = .double e → e.reg.wf → e.sreg.wf →
    s.cfg.oneWriteBit = true → s.cfg.burstCmdIsRead = true →
    (∀ a v : Byte, s.burst = false → exec (.writeReg a v) s = .next t → ∃ f, t.periph = .double f ∧ f.sreg = e.sreg ∧
      ∀ k, f.reg.read k = if k = (a &&& ~~~s.cfg.WRITE_BIT).toNat then v else e.reg.read k) ∧
    (∀ (a : Half) (v : Byte), s.burst = false → exec (.sensorWr a v) s = .next t → ∃ f, t.periph = .double f ∧
      f.reg = e.reg ∧ ∀ k, f.sreg.read k = if k = a.toNat then v else e.sreg.read k) ∧
    (∀ i : Instr, (∃ a, i = .readReg a) ∨ (∃ a m, i = .getBit a m) ∨ (∃ a, i = .sensorRd a) ∨
      i ∈ [.release, .status, .getChipIdHigh, .getChipIdLow, .getChipId, .captureComplete, .readFifoLength, .burstOpen] →
      exec i s = .next t → ∃ f, t.periph = .double f ∧ f.reg = e.reg ∧ f.sreg = e.sreg) ∧
    ((s.burst = true → e.mode = .bursting) → ∀ i ∈ [Instr.burstNext, .burstClose], exec i s = .next t →
      ∃ f, t.periph = .double f ∧ f.reg = e.reg ∧ f.sreg = e.sreg)

/-- R59 (L-RT): with the double, WRITE_REG then READ_REG of a plain register returns the value written. -/
def Obligations.DoubleReadsBackWhatWasWritten : Prop :=
  ∀ (s : State) (d : Driver) (e : Double) (a v : Byte), s.Ready d → s.periph = .double e → e.reg.wf →
    s.cfg.oneWriteBit = true → plainRegister s.cfg a = true →
    ∃ t, runAll [.writeReg a v, .readReg a] s = .next t ∧ t.result = v.setWidth 32

/-- R59 (L-SET, L-CLR): with the double, after SET_BIT a GET_BIT of the same non-zero mask returns 1, and after CLEAR_BIT 0, at a
plain register. -/
def Obligations.DoubleObeysTheBitLaws : Prop :=
  ∀ (s : State) (d : Driver) (e : Double) (a m : Byte), s.Ready d → s.periph = .double e → e.reg.wf →
    s.cfg.oneWriteBit = true → plainRegister s.cfg a = true →
    (∃ t, runAll [.setBit a m, .getBit a m] s = .next t ∧ t.result = if m = 0#8 then 0#32 else 1#32) ∧
    (∃ t, runAll [.clearBit a m, .getBit a m] s = .next t ∧ t.result = 0#32)

/-- R125: for every peripheral, L-RT at the register and the one byte SET_BIT (CLEAR_BIT) writes, after its read, gives the bit
law: in the block's commands, and as the law of R52 itself. -/
def Obligations.RoundTripLawGivesTheBitLaws : Prop :=
  ∀ (s : State) (d : Driver) (a m : Byte), s.Ready d →
    let h := s.periph.hears s.cfg (a &&& ~~~s.cfg.WRITE_BIT) s.cfg.DUMMY
    (h.after.roundTrips s.cfg a (h.second ||| m) → s.periph.setsBits s.cfg a m ∧
      ∃ t, runAll [.setBit a m, .getBit a m] s = .next t ∧ t.result = if m = 0#8 then 0#32 else 1#32) ∧
    (h.after.roundTrips s.cfg a (h.second &&& ~~~m) → s.periph.clearsBits s.cfg a m ∧
      ∃ t, runAll [.clearBit a m, .getBit a m] s = .next t ∧ t.result = 0#32)

/-- R59 (L-BURST): the double streams its frame in order from byte 0 after every burst command, wherever its read pointer
stood. -/
def Obligations.DoubleStreamsTheFrameInOrder : Prop :=
  ∀ (P : Params) (e : Double), P.burstCmdIsRead = true → (Peripheral.double e).burstsInOrder P e.fifo

/-- R58, R162, R164: with the double, a burst closed early and opened again starts at byte 0: the bytes of the second burst are
the frame's first, however many the first burst took. -/
def Obligations.ReopenedBurstStartsAtByteZero : Prop :=
  ∀ (n m : Nat) (s : State) (d : Driver) (e : Double), s.Ready d → s.periph = .double e →
    s.cfg.burstCmdIsRead = true → m ≤ e.fifo.length →
    let code := if s.cap = .frameReady then 0#4 else 5#4
    ∃ t, runAll (.burstOpen :: (List.replicate n .burstNext ++ [.burstClose])
        ++ .burstOpen :: (List.replicate m .burstNext ++ [.burstClose])) s = .next t ∧
      ∃ before, t.responses = before ++ ([⟨code, 0#32⟩] ++ (e.fifo.take m).map (fun b => ⟨0#4, b.setWidth 32⟩) ++ [⟨0#4, 0#32⟩])
end

