-- ==== Sys2Proof/Laws/Bits.lean ====
section
/-! SUPPORT. The fields of a command word and of a 16-bit value: what each reads from a word put together of bytes, and that the
bytes put together again give the word (30_encoding.md R70, R72). -/

namespace Sys2Proof

@[simp] theorem fieldOp_wordOf (a b c d : Byte) : fieldOp (wordOf a b c d) = a := by
  ext i hi
  simp only [fieldOp, wordOf, BitVec.getElem_extractLsb', BitVec.getLsbD_append]
  simp [show ¬ 24 + i < 8 by omega, show ¬ 24 + i - 8 < 8 by omega, show ¬ 24 + i - 8 - 8 < 8 by omega,
    show 24 + i - 8 - 8 - 8 = i by omega, hi]
@[simp] theorem field2_wordOf (a b c d : Byte) : field2 (wordOf a b c d) = b := by
  ext i hi
  simp only [field2, wordOf, BitVec.getElem_extractLsb', BitVec.getLsbD_append]
  simp [show ¬ 16 + i < 8 by omega, show ¬ 16 + i - 8 < 8 by omega, show 16 + i - 8 - 8 = i by omega, hi]
@[simp] theorem field1_wordOf (a b c d : Byte) : field1 (wordOf a b c d) = c := by
  ext i hi
  simp only [field1, wordOf, BitVec.getElem_extractLsb', BitVec.getLsbD_append]
  simp [show ¬ 8 + i < 8 by omega, show 8 + i - 8 = i by omega, hi]
@[simp] theorem field0_wordOf (a b c d : Byte) : field0 (wordOf a b c d) = d := by
  ext i hi
  simp only [field0, wordOf, BitVec.getElem_extractLsb', BitVec.getLsbD_append]
  simp [hi]

theorem wordOf_fields (w : Word) : wordOf (fieldOp w) (field2 w) (field1 w) (field0 w) = w := by
  apply BitVec.eq_of_getLsbD_eq
  intro i hi
  simp only [fieldOp, field2, field1, field0, wordOf, BitVec.getLsbD_append, BitVec.getLsbD_extractLsb']
  interval_cases i <;> simp

@[simp] theorem pairOf_bytes (v : Half) : pairOf (hiByte v) (loByte v) = v := by
  apply BitVec.eq_of_getLsbD_eq
  intro i hi
  simp only [pairOf, hiByte, loByte, BitVec.getLsbD_append, BitVec.getLsbD_extractLsb']
  interval_cases i <;> simp
@[simp] theorem hiByte_pairOf (a b : Byte) : hiByte (pairOf a b) = a := by
  ext i hi
  simp only [pairOf, hiByte, BitVec.getElem_extractLsb', BitVec.getLsbD_append]
  simp [show ¬ 8 + i < 8 by omega, show 8 + i - 8 = i by omega, hi]
@[simp] theorem loByte_pairOf (a b : Byte) : loByte (pairOf a b) = b := by
  ext i hi
  simp only [pairOf, loByte, BitVec.getElem_extractLsb', BitVec.getLsbD_append]
  simp [hi]

/-- A word is its four fields: equal fields, equal words. -/
theorem word_ext (v w : Word) (h3 : fieldOp v = fieldOp w) (h2 : field2 v = field2 w) (h1 : field1 v = field1 w)
    (h0 : field0 v = field0 w) : v = w := by
  rw [← wordOf_fields v, ← wordOf_fields w, h3, h2, h1, h0]

@[simp] theorem fieldOp_and (v w : Word) : fieldOp (v &&& w) = fieldOp v &&& fieldOp w := by
  ext i hi; simp [fieldOp]
@[simp] theorem field2_and (v w : Word) : field2 (v &&& w) = field2 v &&& field2 w := by
  ext i hi; simp [field2]
@[simp] theorem field1_and (v w : Word) : field1 (v &&& w) = field1 v &&& field1 w := by
  ext i hi; simp [field1]
@[simp] theorem field0_and (v w : Word) : field0 (v &&& w) = field0 v &&& field0 w := by
  ext i hi; simp [field0]

/-- The used and unused fields of a format, below the opcode: 0xFF where every bit must match (R71). -/
def Format.maskBytes (f : Format) : Byte × Byte × Byte :=
  match f with
  | .Z => (0xFF#8, 0xFF#8, 0xFF#8)
  | .B | .C | .AV => (0xFF#8, 0#8, 0#8)
  | .A => (0xFF#8, 0#8, 0xFF#8)
  | .S => (0#8, 0#8, 0xFF#8)
  | .SV => (0#8, 0#8, 0#8)
  | .E => (0xFF#8, 0xFF#8, 0#8)

theorem Format.mask_eq (f : Format) : f.mask = wordOf 0xFF#8 f.maskBytes.1 f.maskBytes.2.1 f.maskBytes.2.2 := by
  cases f <;> decide

@[simp] theorem byte_and_ff (b : Byte) : b &&& 0xFF#8 = b := BitVec.and_allOnes (x := b)

/-- Every command has its row in the map, and its encoding matches that row under the row's mask (R71, R73). -/
theorem encode_matches_row (i : Instr) : i.row ∈ opcodeMap ∧ encode i &&& i.row.format.mask = i.row.pattern := by
  constructor
  · cases i <;> simp [Instr.row, opcodeMap, lifecycleRows, registerRows, sensorRows, captureRows, burstRows]
  · cases i <;> apply word_ext <;> simp [Instr.row, encode, Format.mask_eq, Format.maskBytes, OpcodeRow.pattern]

end Sys2Proof

namespace Sys2Proof.Machine

/-- The chip-id word is the two bytes side by side (R136). -/
theorem chipIdWord_eq (a b : Byte) : chipIdWord a b = 0#16 ++ a ++ b := by
  apply BitVec.eq_of_getLsbD_eq; intro i hi
  simp only [chipIdWord, zext32, BitVec.getLsbD_append, BitVec.getLsbD_or, BitVec.getLsbD_shiftLeft, BitVec.getLsbD_setWidth]
  interval_cases i <;> simp

/-- The FIFO length is the three bytes side by side (R149). -/
theorem fifoLengthWord_eq (low mid high : Byte) : fifoLengthWord low mid high = 0#8 ++ high ++ mid ++ low := by
  apply BitVec.eq_of_getLsbD_eq; intro i hi
  simp only [fifoLengthWord, zext32, BitVec.getLsbD_append, BitVec.getLsbD_or, BitVec.getLsbD_shiftLeft,
    BitVec.getLsbD_setWidth]
  interval_cases i <;> simp

/-- A byte with a mask's bits set has them all; with them cleared it has none (R122, R123). -/
theorem orMask_and (r m : Byte) : orMask r m &&& m = m := by
  ext i hi; simp only [orMask, BitVec.getElem_and, BitVec.getElem_or]
  cases r[i] <;> cases m[i] <;> rfl
theorem andNotMask_and (r m : Byte) : andNotMask r m &&& m = 0#8 := by
  ext i hi; simp only [andNotMask, BitVec.getElem_and, BitVec.getElem_not, BitVec.getElem_zero]
  cases r[i] <;> cases m[i] <;> rfl

/-- The read form of an address does not see the address's own `WRITE_BIT` position (R76). -/
@[simp] theorem addrR_addrW (P : Params) (a : Byte) : addrR P (addrW P a) = addrR P a := by
  ext i hi; simp only [addrR, addrW, BitVec.getElem_and, BitVec.getElem_or, BitVec.getElem_not]
  cases a[i] <;> cases P.WRITE_BIT[i] <;> rfl
@[simp] theorem addrR_addrR (P : Params) (a : Byte) : addrR P (addrR P a) = addrR P a := by
  ext i hi; simp only [addrR, BitVec.getElem_and, BitVec.getElem_not]
  cases a[i] <;> cases P.WRITE_BIT[i] <;> rfl
/-- The write form has the `WRITE_BIT` position set (R76). -/
@[simp] theorem addrW_and_writeBit (P : Params) (a : Byte) : addrW P a &&& P.WRITE_BIT = P.WRITE_BIT := by
  ext i hi; simp only [addrW, BitVec.getElem_and, BitVec.getElem_or]
  cases a[i] <;> cases P.WRITE_BIT[i] <;> rfl
/-- The read form has it clear (R76). -/
@[simp] theorem addrR_and_writeBit (P : Params) (a : Byte) : addrR P a &&& P.WRITE_BIT = 0#8 := by
  ext i hi; simp only [addrR, BitVec.getElem_and, BitVec.getElem_not, BitVec.getElem_zero]
  cases a[i] <;> cases P.WRITE_BIT[i] <;> rfl

end Sys2Proof.Machine
end

