-- ==== Sys2Proof/Laws/State.lean ====
section
/-! SUPPORT. One lemma per field per named update of State, true by rfl (State.lean, Flags.lean, Ops.lean, Safety.lean), so that
no later proof unfolds a record update; and the reset state. -/

namespace Sys2Proof.Machine

@[simp] theorem bound_eq_isSome (s : State) : s.bound = s.driver.isSome := rfl

@[simp] theorem Phase.advance_idle (n : Nat) : Phase.idle.advance n = .idle := rfl
@[simp] theorem Phase.advance_run (n k : Nat) (i : Instr) : (Phase.run i k).advance n = .run i (k + n) := rfl
@[simp] theorem Phase.advance_advance (n m : Nat) (p : Phase) : (p.advance n).advance m = p.advance (n + m) := by
  cases p <;> simp [Phase.advance, Nat.add_assoc]

@[simp] theorem Err.lowest_ok (e : Err) : Err.ok.lowest e = e := rfl
@[simp] theorem Err.lowest_precond_sbaddr : Err.precond.lowest .sbaddr = .precond := by decide

/-! ### `begin` -/

@[simp] theorem begin_driver (i : Instr) (s : State) : (begin i s).driver = s.driver := rfl
@[simp] theorem begin_cs (i : Instr) (s : State) : (begin i s).cs = s.cs := rfl
@[simp] theorem begin_txn (i : Instr) (s : State) : (begin i s).txn = s.txn := rfl
@[simp] theorem begin_burst (i : Instr) (s : State) : (begin i s).burst = s.burst := rfl
@[simp] theorem begin_cap (i : Instr) (s : State) : (begin i s).cap = s.cap := rfl
@[simp] theorem begin_result (i : Instr) (s : State) : (begin i s).result = s.result := rfl
@[simp] theorem begin_sr (i : Instr) (s : State) : (begin i s).sr = s.sr := rfl
@[simp] theorem begin_tmp (i : Instr) (s : State) : (begin i s).tmp = s.tmp := rfl
@[simp] theorem begin_tResetMs (i : Instr) (s : State) : (begin i s).tResetMs = s.tResetMs := rfl
@[simp] theorem begin_err (i : Instr) (s : State) : (begin i s).err = .ok := rfl
@[simp] theorem begin_sRefused (i : Instr) (s : State) : (begin i s).sRefused = s.sRefused := rfl
@[simp] theorem begin_sPrecond (i : Instr) (s : State) : (begin i s).sPrecond = s.sPrecond := rfl
@[simp] theorem begin_sSbaddr (i : Instr) (s : State) : (begin i s).sSbaddr = s.sSbaddr := rfl
@[simp] theorem begin_sRawmgd (i : Instr) (s : State) : (begin i s).sRawmgd = s.sRawmgd := rfl
@[simp] theorem begin_phase (i : Instr) (s : State) : (begin i s).phase = .run i 0 := rfl
@[simp] theorem begin_cfg (i : Instr) (s : State) : (begin i s).cfg = s.cfg := rfl
@[simp] theorem begin_inputs (i : Instr) (s : State) : (begin i s).inputs = s.inputs := rfl
@[simp] theorem begin_trace (i : Instr) (s : State) : (begin i s).trace = s.trace := rfl
@[simp] theorem begin_responses (i : Instr) (s : State) : (begin i s).responses = s.responses := rfl
@[simp] theorem begin_periph (i : Instr) (s : State) : (begin i s).periph = s.periph := rfl

/-! ### `emit` -/

@[simp] theorem emit_driver (e : Event) (s : State) : (emit e s).driver = s.driver := rfl
@[simp] theorem emit_cs (e : Event) (s : State) : (emit e s).cs = s.cs := rfl
@[simp] theorem emit_txn (e : Event) (s : State) : (emit e s).txn = s.txn := rfl
@[simp] theorem emit_burst (e : Event) (s : State) : (emit e s).burst = s.burst := rfl
@[simp] theorem emit_cap (e : Event) (s : State) : (emit e s).cap = s.cap := rfl
@[simp] theorem emit_result (e : Event) (s : State) : (emit e s).result = s.result := rfl
@[simp] theorem emit_sr (e : Event) (s : State) : (emit e s).sr = s.sr := rfl
@[simp] theorem emit_tmp (e : Event) (s : State) : (emit e s).tmp = s.tmp := rfl
@[simp] theorem emit_tResetMs (e : Event) (s : State) : (emit e s).tResetMs = s.tResetMs := rfl
@[simp] theorem emit_err (e : Event) (s : State) : (emit e s).err = s.err := rfl
@[simp] theorem emit_sRefused (e : Event) (s : State) : (emit e s).sRefused = s.sRefused := rfl
@[simp] theorem emit_sPrecond (e : Event) (s : State) : (emit e s).sPrecond = s.sPrecond := rfl
@[simp] theorem emit_sSbaddr (e : Event) (s : State) : (emit e s).sSbaddr = s.sSbaddr := rfl
@[simp] theorem emit_sRawmgd (e : Event) (s : State) : (emit e s).sRawmgd = s.sRawmgd := rfl
@[simp] theorem emit_phase (e : Event) (s : State) : (emit e s).phase = s.phase.advance 1 := rfl
@[simp] theorem emit_cfg (e : Event) (s : State) : (emit e s).cfg = s.cfg := rfl
@[simp] theorem emit_inputs (e : Event) (s : State) : (emit e s).inputs = s.inputs := rfl
@[simp] theorem emit_trace (e : Event) (s : State) : (emit e s).trace = s.trace ++ [e] := rfl
@[simp] theorem emit_responses (e : Event) (s : State) : (emit e s).responses = s.responses := rfl
@[simp] theorem emit_periph (e : Event) (s : State) : (emit e s).periph = s.periph := rfl

/-! ### `finish` -/

@[simp] theorem finish_driver (s : State) : (finish s).driver = s.driver := rfl
@[simp] theorem finish_cs (s : State) : (finish s).cs = s.cs := rfl
@[simp] theorem finish_txn (s : State) : (finish s).txn = s.txn := rfl
@[simp] theorem finish_burst (s : State) : (finish s).burst = s.burst := rfl
@[simp] theorem finish_cap (s : State) : (finish s).cap = s.cap := rfl
@[simp] theorem finish_result (s : State) : (finish s).result = s.result := rfl
@[simp] theorem finish_sr (s : State) : (finish s).sr = s.sr := rfl
@[simp] theorem finish_tmp (s : State) : (finish s).tmp = s.tmp := rfl
@[simp] theorem finish_tResetMs (s : State) : (finish s).tResetMs = s.tResetMs := rfl
@[simp] theorem finish_err (s : State) : (finish s).err = s.err := rfl
@[simp] theorem finish_sRefused (s : State) : (finish s).sRefused = s.sRefused := rfl
@[simp] theorem finish_sPrecond (s : State) : (finish s).sPrecond = s.sPrecond := rfl
@[simp] theorem finish_sSbaddr (s : State) : (finish s).sSbaddr = s.sSbaddr := rfl
@[simp] theorem finish_sRawmgd (s : State) : (finish s).sRawmgd = s.sRawmgd := rfl
@[simp] theorem finish_phase (s : State) : (finish s).phase = .idle := rfl
@[simp] theorem finish_cfg (s : State) : (finish s).cfg = s.cfg := rfl
@[simp] theorem finish_inputs (s : State) : (finish s).inputs = s.inputs := rfl
@[simp] theorem finish_trace (s : State) : (finish s).trace = s.trace := rfl
@[simp] theorem finish_responses (s : State) : (finish s).responses = s.responses ++ [s.response] := rfl
@[simp] theorem finish_periph (s : State) : (finish s).periph = s.periph := rfl

/-! ### `refuse` -/

@[simp] theorem refuse_driver (e : Err) (s : State) : (refuse e s).driver = s.driver := rfl
@[simp] theorem refuse_cs (e : Err) (s : State) : (refuse e s).cs = s.cs := rfl
@[simp] theorem refuse_txn (e : Err) (s : State) : (refuse e s).txn = s.txn := rfl
@[simp] theorem refuse_burst (e : Err) (s : State) : (refuse e s).burst = s.burst := rfl
@[simp] theorem refuse_cap (e : Err) (s : State) : (refuse e s).cap = s.cap := rfl
@[simp] theorem refuse_result (e : Err) (s : State) : (refuse e s).result = s.result := rfl
@[simp] theorem refuse_sr (e : Err) (s : State) : (refuse e s).sr = s.sr := rfl
@[simp] theorem refuse_tmp (e : Err) (s : State) : (refuse e s).tmp = s.tmp := rfl
@[simp] theorem refuse_tResetMs (e : Err) (s : State) : (refuse e s).tResetMs = s.tResetMs := rfl
@[simp] theorem refuse_err (e : Err) (s : State) : (refuse e s).err = e := rfl
@[simp] theorem refuse_sRefused (e : Err) (s : State) : (refuse e s).sRefused = true := rfl
@[simp] theorem refuse_sPrecond (e : Err) (s : State) : (refuse e s).sPrecond = s.sPrecond := rfl
@[simp] theorem refuse_sSbaddr (e : Err) (s : State) : (refuse e s).sSbaddr = s.sSbaddr := rfl
@[simp] theorem refuse_sRawmgd (e : Err) (s : State) : (refuse e s).sRawmgd = s.sRawmgd := rfl
@[simp] theorem refuse_phase (e : Err) (s : State) : (refuse e s).phase = .idle := rfl
@[simp] theorem refuse_cfg (e : Err) (s : State) : (refuse e s).cfg = s.cfg := rfl
@[simp] theorem refuse_inputs (e : Err) (s : State) : (refuse e s).inputs = s.inputs := rfl
@[simp] theorem refuse_trace (e : Err) (s : State) : (refuse e s).trace = s.trace := rfl
@[simp] theorem refuse_responses (e : Err) (s : State) : (refuse e s).responses = s.responses ++ [⟨e.code, s.result⟩] := rfl
@[simp] theorem refuse_periph (e : Err) (s : State) : (refuse e s).periph = s.periph := rfl

/-! ### `flagPrecond` -/

@[simp] theorem flagPrecond_driver (s : State) : (flagPrecond s).driver = s.driver := rfl
@[simp] theorem flagPrecond_cs (s : State) : (flagPrecond s).cs = s.cs := rfl
@[simp] theorem flagPrecond_txn (s : State) : (flagPrecond s).txn = s.txn := rfl
@[simp] theorem flagPrecond_burst (s : State) : (flagPrecond s).burst = s.burst := rfl
@[simp] theorem flagPrecond_cap (s : State) : (flagPrecond s).cap = s.cap := rfl
@[simp] theorem flagPrecond_result (s : State) : (flagPrecond s).result = s.result := rfl
@[simp] theorem flagPrecond_sr (s : State) : (flagPrecond s).sr = s.sr := rfl
@[simp] theorem flagPrecond_tmp (s : State) : (flagPrecond s).tmp = s.tmp := rfl
@[simp] theorem flagPrecond_tResetMs (s : State) : (flagPrecond s).tResetMs = s.tResetMs := rfl
@[simp] theorem flagPrecond_err (s : State) : (flagPrecond s).err = s.err.lowest .precond := rfl
@[simp] theorem flagPrecond_sRefused (s : State) : (flagPrecond s).sRefused = s.sRefused := rfl
@[simp] theorem flagPrecond_sPrecond (s : State) : (flagPrecond s).sPrecond = true := rfl
@[simp] theorem flagPrecond_sSbaddr (s : State) : (flagPrecond s).sSbaddr = s.sSbaddr := rfl
@[simp] theorem flagPrecond_sRawmgd (s : State) : (flagPrecond s).sRawmgd = s.sRawmgd := rfl
@[simp] theorem flagPrecond_phase (s : State) : (flagPrecond s).phase = s.phase := rfl
@[simp] theorem flagPrecond_cfg (s : State) : (flagPrecond s).cfg = s.cfg := rfl
@[simp] theorem flagPrecond_inputs (s : State) : (flagPrecond s).inputs = s.inputs := rfl
@[simp] theorem flagPrecond_trace (s : State) : (flagPrecond s).trace = s.trace := rfl
@[simp] theorem flagPrecond_responses (s : State) : (flagPrecond s).responses = s.responses := rfl
@[simp] theorem flagPrecond_periph (s : State) : (flagPrecond s).periph = s.periph := rfl

/-! ### `flagSbaddr` -/

@[simp] theorem flagSbaddr_driver (s : State) : (flagSbaddr s).driver = s.driver := rfl
@[simp] theorem flagSbaddr_cs (s : State) : (flagSbaddr s).cs = s.cs := rfl
@[simp] theorem flagSbaddr_txn (s : State) : (flagSbaddr s).txn = s.txn := rfl
@[simp] theorem flagSbaddr_burst (s : State) : (flagSbaddr s).burst = s.burst := rfl
@[simp] theorem flagSbaddr_cap (s : State) : (flagSbaddr s).cap = s.cap := rfl
@[simp] theorem flagSbaddr_result (s : State) : (flagSbaddr s).result = s.result := rfl
@[simp] theorem flagSbaddr_sr (s : State) : (flagSbaddr s).sr = s.sr := rfl
@[simp] theorem flagSbaddr_tmp (s : State) : (flagSbaddr s).tmp = s.tmp := rfl
@[simp] theorem flagSbaddr_tResetMs (s : State) : (flagSbaddr s).tResetMs = s.tResetMs := rfl
@[simp] theorem flagSbaddr_err (s : State) : (flagSbaddr s).err = s.err.lowest .sbaddr := rfl
@[simp] theorem flagSbaddr_sRefused (s : State) : (flagSbaddr s).sRefused = s.sRefused := rfl
@[simp] theorem flagSbaddr_sPrecond (s : State) : (flagSbaddr s).sPrecond = s.sPrecond := rfl
@[simp] theorem flagSbaddr_sSbaddr (s : State) : (flagSbaddr s).sSbaddr = true := rfl
@[simp] theorem flagSbaddr_sRawmgd (s : State) : (flagSbaddr s).sRawmgd = s.sRawmgd := rfl
@[simp] theorem flagSbaddr_phase (s : State) : (flagSbaddr s).phase = s.phase := rfl
@[simp] theorem flagSbaddr_cfg (s : State) : (flagSbaddr s).cfg = s.cfg := rfl
@[simp] theorem flagSbaddr_inputs (s : State) : (flagSbaddr s).inputs = s.inputs := rfl
@[simp] theorem flagSbaddr_trace (s : State) : (flagSbaddr s).trace = s.trace := rfl
@[simp] theorem flagSbaddr_responses (s : State) : (flagSbaddr s).responses = s.responses := rfl
@[simp] theorem flagSbaddr_periph (s : State) : (flagSbaddr s).periph = s.periph := rfl

/-! ### `flagRawmgd` -/

@[simp] theorem flagRawmgd_driver (s : State) : (flagRawmgd s).driver = s.driver := rfl
@[simp] theorem flagRawmgd_cs (s : State) : (flagRawmgd s).cs = s.cs := rfl
@[simp] theorem flagRawmgd_txn (s : State) : (flagRawmgd s).txn = s.txn := rfl
@[simp] theorem flagRawmgd_burst (s : State) : (flagRawmgd s).burst = s.burst := rfl
@[simp] theorem flagRawmgd_cap (s : State) : (flagRawmgd s).cap = s.cap := rfl
@[simp] theorem flagRawmgd_result (s : State) : (flagRawmgd s).result = s.result := rfl
@[simp] theorem flagRawmgd_sr (s : State) : (flagRawmgd s).sr = s.sr := rfl
@[simp] theorem flagRawmgd_tmp (s : State) : (flagRawmgd s).tmp = s.tmp := rfl
@[simp] theorem flagRawmgd_tResetMs (s : State) : (flagRawmgd s).tResetMs = s.tResetMs := rfl
@[simp] theorem flagRawmgd_err (s : State) : (flagRawmgd s).err = s.err.lowest .rawmgd := rfl
@[simp] theorem flagRawmgd_sRefused (s : State) : (flagRawmgd s).sRefused = s.sRefused := rfl
@[simp] theorem flagRawmgd_sPrecond (s : State) : (flagRawmgd s).sPrecond = s.sPrecond := rfl
@[simp] theorem flagRawmgd_sSbaddr (s : State) : (flagRawmgd s).sSbaddr = s.sSbaddr := rfl
@[simp] theorem flagRawmgd_sRawmgd (s : State) : (flagRawmgd s).sRawmgd = true := rfl
@[simp] theorem flagRawmgd_phase (s : State) : (flagRawmgd s).phase = s.phase := rfl
@[simp] theorem flagRawmgd_cfg (s : State) : (flagRawmgd s).cfg = s.cfg := rfl
@[simp] theorem flagRawmgd_inputs (s : State) : (flagRawmgd s).inputs = s.inputs := rfl
@[simp] theorem flagRawmgd_trace (s : State) : (flagRawmgd s).trace = s.trace := rfl
@[simp] theorem flagRawmgd_responses (s : State) : (flagRawmgd s).responses = s.responses := rfl
@[simp] theorem flagRawmgd_periph (s : State) : (flagRawmgd s).periph = s.periph := rfl

/-! ### `moveCap` -/

@[simp] theorem moveCap_driver (ok : Bool) (c : CapState) (s : State) : (moveCap ok c s).driver = s.driver := by cases ok <;> rfl
@[simp] theorem moveCap_cs (ok : Bool) (c : CapState) (s : State) : (moveCap ok c s).cs = s.cs := by cases ok <;> rfl
@[simp] theorem moveCap_txn (ok : Bool) (c : CapState) (s : State) : (moveCap ok c s).txn = s.txn := by cases ok <;> rfl
@[simp] theorem moveCap_burst (ok : Bool) (c : CapState) (s : State) : (moveCap ok c s).burst = s.burst := by cases ok <;> rfl
@[simp] theorem moveCap_cap (ok : Bool) (c : CapState) (s : State) : (moveCap ok c s).cap = if ok then c else s.cap := by cases ok <;> rfl
@[simp] theorem moveCap_result (ok : Bool) (c : CapState) (s : State) : (moveCap ok c s).result = s.result := by cases ok <;> rfl
@[simp] theorem moveCap_sr (ok : Bool) (c : CapState) (s : State) : (moveCap ok c s).sr = s.sr := by cases ok <;> rfl
@[simp] theorem moveCap_tmp (ok : Bool) (c : CapState) (s : State) : (moveCap ok c s).tmp = s.tmp := by cases ok <;> rfl
@[simp] theorem moveCap_tResetMs (ok : Bool) (c : CapState) (s : State) : (moveCap ok c s).tResetMs = s.tResetMs := by cases ok <;> rfl
@[simp] theorem moveCap_err (ok : Bool) (c : CapState) (s : State) : (moveCap ok c s).err = s.err := by cases ok <;> rfl
@[simp] theorem moveCap_sRefused (ok : Bool) (c : CapState) (s : State) : (moveCap ok c s).sRefused = s.sRefused := by cases ok <;> rfl
@[simp] theorem moveCap_sPrecond (ok : Bool) (c : CapState) (s : State) : (moveCap ok c s).sPrecond = s.sPrecond := by cases ok <;> rfl
@[simp] theorem moveCap_sSbaddr (ok : Bool) (c : CapState) (s : State) : (moveCap ok c s).sSbaddr = s.sSbaddr := by cases ok <;> rfl
@[simp] theorem moveCap_sRawmgd (ok : Bool) (c : CapState) (s : State) : (moveCap ok c s).sRawmgd = s.sRawmgd := by cases ok <;> rfl
@[simp] theorem moveCap_phase (ok : Bool) (c : CapState) (s : State) : (moveCap ok c s).phase = s.phase := by cases ok <;> rfl
@[simp] theorem moveCap_cfg (ok : Bool) (c : CapState) (s : State) : (moveCap ok c s).cfg = s.cfg := by cases ok <;> rfl
@[simp] theorem moveCap_inputs (ok : Bool) (c : CapState) (s : State) : (moveCap ok c s).inputs = s.inputs := by cases ok <;> rfl
@[simp] theorem moveCap_trace (ok : Bool) (c : CapState) (s : State) : (moveCap ok c s).trace = s.trace := by cases ok <;> rfl
@[simp] theorem moveCap_responses (ok : Bool) (c : CapState) (s : State) : (moveCap ok c s).responses = s.responses := by cases ok <;> rfl
@[simp] theorem moveCap_periph (ok : Bool) (c : CapState) (s : State) : (moveCap ok c s).periph = s.periph := by cases ok <;> rfl

/-! ### `answered` -/

@[simp] theorem answered_driver (e : Err) (r : Word) (s : State) : (s.answered e r).driver = s.driver := rfl
@[simp] theorem answered_cs (e : Err) (r : Word) (s : State) : (s.answered e r).cs = s.cs := rfl
@[simp] theorem answered_txn (e : Err) (r : Word) (s : State) : (s.answered e r).txn = s.txn := rfl
@[simp] theorem answered_burst (e : Err) (r : Word) (s : State) : (s.answered e r).burst = s.burst := rfl
@[simp] theorem answered_cap (e : Err) (r : Word) (s : State) : (s.answered e r).cap = s.cap := rfl
@[simp] theorem answered_result (e : Err) (r : Word) (s : State) : (s.answered e r).result = r := rfl
@[simp] theorem answered_sr (e : Err) (r : Word) (s : State) : (s.answered e r).sr = s.sr := rfl
@[simp] theorem answered_tmp (e : Err) (r : Word) (s : State) : (s.answered e r).tmp = s.tmp := rfl
@[simp] theorem answered_tResetMs (e : Err) (r : Word) (s : State) : (s.answered e r).tResetMs = s.tResetMs := rfl
@[simp] theorem answered_err (e : Err) (r : Word) (s : State) : (s.answered e r).err = e := rfl
@[simp] theorem answered_sRefused (e : Err) (r : Word) (s : State) : (s.answered e r).sRefused = s.sRefused := rfl
@[simp] theorem answered_sPrecond (e : Err) (r : Word) (s : State) : (s.answered e r).sPrecond = s.sPrecond := rfl
@[simp] theorem answered_sSbaddr (e : Err) (r : Word) (s : State) : (s.answered e r).sSbaddr = s.sSbaddr := rfl
@[simp] theorem answered_sRawmgd (e : Err) (r : Word) (s : State) : (s.answered e r).sRawmgd = s.sRawmgd := rfl
@[simp] theorem answered_phase (e : Err) (r : Word) (s : State) : (s.answered e r).phase = s.phase := rfl
@[simp] theorem answered_cfg (e : Err) (r : Word) (s : State) : (s.answered e r).cfg = s.cfg := rfl
@[simp] theorem answered_inputs (e : Err) (r : Word) (s : State) : (s.answered e r).inputs = s.inputs := rfl
@[simp] theorem answered_trace (e : Err) (r : Word) (s : State) : (s.answered e r).trace = s.trace := rfl
@[simp] theorem answered_responses (e : Err) (r : Word) (s : State) : (s.answered e r).responses = s.responses ++ [⟨e.code, r⟩] := rfl
@[simp] theorem answered_periph (e : Err) (r : Word) (s : State) : (s.answered e r).periph = s.periph := rfl

/-! ### The reset state (R30) -/

@[simp] theorem reset_driver : State.reset.driver = none := rfl
@[simp] theorem reset_cs : State.reset.cs = true := rfl
@[simp] theorem reset_txn : State.reset.txn = false := rfl
@[simp] theorem reset_burst : State.reset.burst = false := rfl
@[simp] theorem reset_cap : State.reset.cap = .uninitialized := rfl
@[simp] theorem reset_phase : State.reset.phase = .idle := rfl

end Sys2Proof.Machine
end

