-- ==== Sys2Proof/Laws/Ops.lean ====
section
/-! SUPPORT. One lemma per shared operation that says once what it does where R7 allows it, and one that says when it answers at
all; callers cite these and do not unfold the operation. -/

namespace Sys2Proof.Machine

/-! ### Chaining -/

@[simp] theorem Exec.ok_bind {α β : Type} (a : α) (f : α → Except Fault β) : (Except.ok a >>= f) = f a := rfl
@[simp] theorem Exec.error_bind {α β : Type} (e : Fault) (f : α → Except Fault β) :
    ((Except.error e : Except Fault α) >>= f) = .error e := rfl
@[simp] theorem Exec.pure_eq {α : Type} (a : α) : (pure a : Except Fault α) = .ok a := rfl

@[simp] theorem complete_ok (s : State) : complete (.ok s) = .next (finish s) := rfl
@[simp] theorem complete_error (f : Fault) : complete (.error f) = .fault f := rfl

theorem complete_next {r : Exec} {t : State} (h : complete r = .next t) : ∃ u, r = .ok u ∧ t = finish u := by
  cases r with
  | ok u => exact ⟨u, rfl, by simpa [eq_comm] using h⟩
  | error f => simp at h

/-! ### Admission -/

theorem runDriver_unbound {i : Instr} {s : State} {body : Driver → State → Exec} (h : s.driver = none) :
    runDriver i s body = refused .unbound s := by simp [runDriver, h]

theorem runDriver_badEnum {i : Instr} {s : State} {body : Driver → State → Exec} {d : Driver} (h : s.driver = some d)
    (he : enumOk i s.cfg d.model = false) : runDriver i s body = refused .illegal s := by simp [runDriver, h, he]

theorem runDriver_lease {i : Instr} {s : State} {body : Driver → State → Exec} {d : Driver} (h : s.driver = some d)
    (he : enumOk i s.cfg d.model = true) (hb : s.burst ≠ needsReader i) : runDriver i s body = refused .lease s := by
  simp [runDriver, h, he, hb]

theorem runDriver_run {i : Instr} {s : State} {body : Driver → State → Exec} {d : Driver} (h : s.driver = some d)
    (he : enumOk i s.cfg d.model = true) (hb : s.burst = needsReader i) :
    runDriver i s body = complete (body d (begin i s)) := by simp [runDriver, h, he, hb]

/-- What a driver command can do: be refused by the first failing check of R170, or run. -/
theorem runDriver_cases (i : Instr) (s : State) (body : Driver → State → Exec) :
    (s.driver = none ∧ runDriver i s body = refused .unbound s) ∨
    (∃ d, s.driver = some d ∧ enumOk i s.cfg d.model = false ∧ runDriver i s body = refused .illegal s) ∨
    (∃ d, s.driver = some d ∧ enumOk i s.cfg d.model = true ∧ s.burst ≠ needsReader i ∧
      runDriver i s body = refused .lease s) ∨
    (∃ d, s.driver = some d ∧ enumOk i s.cfg d.model = true ∧ s.burst = needsReader i ∧
      runDriver i s body = complete (body d (begin i s))) := by
  cases h : s.driver with
  | none => exact .inl ⟨rfl, runDriver_unbound h⟩
  | some d =>
    cases he : enumOk i s.cfg d.model with
    | false => exact .inr (.inl ⟨d, rfl, he, runDriver_badEnum h he⟩)
    | true =>
      by_cases hb : s.burst = needsReader i
      · exact .inr (.inr (.inr ⟨d, rfl, he, hb, runDriver_run h he hb⟩))
      · exact .inr (.inr (.inl ⟨d, rfl, he, hb, runDriver_lease h he hb⟩))

/-! ### Micro-operations -/

theorem csLow_ok {s : State} (hb : s.bound = true) (ht : s.txn = false) :
    csLow s = .ok (emit .csLow { s with cs := false, txn := true, periph := s.periph.csLow }) := by
  simp only [csLow, hb, ht]; rfl

theorem csLow_next {s t : State} (h : csLow s = .ok t) :
    s.bound = true ∧ s.txn = false ∧ t = emit .csLow { s with cs := false, txn := true, periph := s.periph.csLow } := by
  unfold csLow at h
  split at h
  next hb =>
    split at h
    · simp at h
    next ht => exact ⟨hb, by simpa using ht, by simpa [eq_comm] using h⟩
  next => simp at h

theorem csHigh_ok {s : State} (ht : s.txn = true) :
    csHigh s = .ok (emit .csHigh { s with cs := true, txn := false, periph := s.periph.csHigh }) := by
  simp only [csHigh, ht]; rfl

theorem csHigh_next {s t : State} (h : csHigh s = .ok t) :
    s.txn = true ∧ t = emit .csHigh { s with cs := true, txn := false, periph := s.periph.csHigh } := by
  unfold csHigh at h
  split at h
  next ht => exact ⟨ht, by simpa [eq_comm] using h⟩
  next => simp at h

theorem xfer_ok {s : State} (out : Byte) (ht : s.txn = true) :
    xfer out s = .ok ((s.periph.xfer s.cfg out).1,
      emit (.xfer out (s.periph.xfer s.cfg out).1)
        { s with sr := (s.periph.xfer s.cfg out).1, periph := (s.periph.xfer s.cfg out).2 }) := by
  simp only [xfer, ht]; rfl

theorem xfer_next {s : State} {out : Byte} {r : Byte × State} (h : xfer out s = .ok r) :
    s.txn = true ∧ r.1 = (s.periph.xfer s.cfg out).1 ∧
    r.2 = emit (.xfer out r.1) { s with sr := r.1, periph := (s.periph.xfer s.cfg out).2 } := by
  unfold xfer at h
  split at h
  next ht => cases h; exact ⟨ht, rfl, rfl⟩
  next => simp at h

theorem delay_ok {s : State} (ms : Half) (ht : s.txn = false) : delay ms s = .ok (emit (.delay ms) s) := by
  simp only [delay, ht]; rfl

theorem sbRead_ok {s : State} (a : Half) (ht : s.txn = false) :
    sbRead a s = .ok ((s.periph.sbRead a).1,
      emit (.sbRd a (s.periph.sbRead a).1) { s with periph := (s.periph.sbRead a).2 }) := by
  simp only [sbRead, ht]; rfl

theorem sbWrite_ok {s : State} (a : Half) (v : Byte) (ht : s.txn = false) :
    sbWrite a v s = .ok (emit (.sbWr a v) { s with periph := s.periph.sbWrite a v }) := by
  simp only [sbWrite, ht]; rfl

/-! ### Composite register accesses -/

/-- The state after one register transaction (R79). -/
def afterReg (out1 out2 : Byte) (s : State) : State :=
  let h := s.periph.hears s.cfg out1 out2
  { s with cs := true, txn := false, sr := h.second, periph := h.after, trace := s.trace ++ regEvents out1 out2 h,
           phase := s.phase.advance 4 }

@[simp] theorem afterReg_driver (o p : Byte) (s : State) : (afterReg o p s).driver = s.driver := rfl
@[simp] theorem afterReg_cs (o p : Byte) (s : State) : (afterReg o p s).cs = true := rfl
@[simp] theorem afterReg_txn (o p : Byte) (s : State) : (afterReg o p s).txn = false := rfl
@[simp] theorem afterReg_burst (o p : Byte) (s : State) : (afterReg o p s).burst = s.burst := rfl
@[simp] theorem afterReg_cap (o p : Byte) (s : State) : (afterReg o p s).cap = s.cap := rfl
@[simp] theorem afterReg_result (o p : Byte) (s : State) : (afterReg o p s).result = s.result := rfl
@[simp] theorem afterReg_sr (o p : Byte) (s : State) : (afterReg o p s).sr = (s.periph.hears s.cfg o p).second := rfl
@[simp] theorem afterReg_tmp (o p : Byte) (s : State) : (afterReg o p s).tmp = s.tmp := rfl
@[simp] theorem afterReg_tResetMs (o p : Byte) (s : State) : (afterReg o p s).tResetMs = s.tResetMs := rfl
@[simp] theorem afterReg_err (o p : Byte) (s : State) : (afterReg o p s).err = s.err := rfl
@[simp] theorem afterReg_sRefused (o p : Byte) (s : State) : (afterReg o p s).sRefused = s.sRefused := rfl
@[simp] theorem afterReg_sPrecond (o p : Byte) (s : State) : (afterReg o p s).sPrecond = s.sPrecond := rfl
@[simp] theorem afterReg_sSbaddr (o p : Byte) (s : State) : (afterReg o p s).sSbaddr = s.sSbaddr := rfl
@[simp] theorem afterReg_sRawmgd (o p : Byte) (s : State) : (afterReg o p s).sRawmgd = s.sRawmgd := rfl
@[simp] theorem afterReg_phase (o p : Byte) (s : State) : (afterReg o p s).phase = s.phase.advance 4 := rfl
@[simp] theorem afterReg_cfg (o p : Byte) (s : State) : (afterReg o p s).cfg = s.cfg := rfl
@[simp] theorem afterReg_inputs (o p : Byte) (s : State) : (afterReg o p s).inputs = s.inputs := rfl
@[simp] theorem afterReg_trace (o p : Byte) (s : State) :
    (afterReg o p s).trace = s.trace ++ regEvents o p (s.periph.hears s.cfg o p) := rfl
@[simp] theorem afterReg_responses (o p : Byte) (s : State) : (afterReg o p s).responses = s.responses := rfl
@[simp] theorem afterReg_periph (o p : Byte) (s : State) : (afterReg o p s).periph = (s.periph.hears s.cfg o p).after := rfl

/-- `write_reg` where it may be called: the four events of R120. -/
theorem writeReg_ok {s : State} (a v : Byte) (hb : s.bound = true) (ht : s.txn = false) :
    writeReg a v s = .ok (afterReg (addrW s.cfg a) v s) := by
  simp only [writeReg, csLow_ok hb ht, Exec.ok_bind]
  rw [xfer_ok _ (by rfl)]
  simp only [Exec.ok_bind]
  rw [xfer_ok _ (by rfl)]
  simp only [Exec.ok_bind]
  rw [csHigh_ok (by rfl)]
  simp [emit, afterReg, regEvents, Peripheral.hears]

/-- `read_reg` where it may be called: the four events of R121; the value is the second byte received. -/
theorem readReg_ok {s : State} (a : Byte) (hb : s.bound = true) (ht : s.txn = false) :
    readReg a s = .ok ((s.periph.hears s.cfg (addrR s.cfg a) s.cfg.DUMMY).second,
      afterReg (addrR s.cfg a) s.cfg.DUMMY s) := by
  simp only [readReg, csLow_ok hb ht, Exec.ok_bind]
  rw [xfer_ok _ (by rfl)]
  simp only [Exec.ok_bind]
  rw [xfer_ok _ (by rfl)]
  simp only [Exec.ok_bind]
  rw [csHigh_ok (by rfl)]
  simp [emit, afterReg, regEvents, Peripheral.hears]

/-- The state after the read-modify-write of R122 and R123. -/
def afterModify (a : Byte) (f : Byte → Byte) (s : State) : State :=
  let r := (s.periph.hears s.cfg (addrR s.cfg a) s.cfg.DUMMY).second
  afterReg (addrW s.cfg a) (f r) { afterReg (addrR s.cfg a) s.cfg.DUMMY s with tmp := r }

theorem modifyReg_ok {s : State} (a : Byte) (f : Byte → Byte) (hb : s.bound = true) (ht : s.txn = false) :
    modifyReg a f s = .ok (afterModify a f s) := by
  simp only [modifyReg, readReg_ok a hb ht, Exec.ok_bind]
  rw [writeReg_ok a _ (by simpa using hb) (by rfl)]
  rfl

/-- Outside a transaction and with an instance, a register access needs nothing else; without either it does not answer. -/
theorem writeReg_next {s t : State} {a v : Byte} (h : writeReg a v s = .ok t) : s.bound = true ∧ s.txn = false := by
  unfold writeReg at h
  cases hc : csLow s with
  | ok u => exact ⟨(csLow_next hc).1, (csLow_next hc).2.1⟩
  | error f => rw [hc] at h; simp at h

theorem readReg_next {s : State} {a : Byte} {r : Byte × State} (h : readReg a s = .ok r) :
    s.bound = true ∧ s.txn = false := by
  unfold readReg at h
  cases hc : csLow s with
  | ok u => exact ⟨(csLow_next hc).1, (csLow_next hc).2.1⟩
  | error f => rw [hc] at h; simp at h

/-! ### Vendor sequences -/

/-- The state after a vendor sequence: what R142 puts on the wire, in SR, in TMP and in the peripheral. -/
def afterSeq (seq : List VendorStep) (s : State) : State :=
  let w := vendorWire s.cfg seq s.sr s.tmp s.periph
  { s with sr := w.sr, tmp := w.tmp, periph := w.periph, trace := s.trace ++ w.events,
           phase := s.phase.advance w.events.length }

theorem runStep_ok {s : State} (v : VendorStep) (hb : s.bound = true) (ht : s.txn = false) (hc : s.cs = true) :
    runStep v s = .ok (afterSeq [v] s) := by
  have hd : s.driver.isSome = true := hb
  cases v with
  | sw a x => simp [runStep, sbWrite_ok a x ht, afterSeq, vendorWire, Wire.preceded, emit]
  | rw a x => simp [runStep, writeReg_ok a x hb ht, afterSeq, vendorWire, Wire.preceded, afterReg, addrW, regEvents, ht, hc]
  | rs a m =>
    simp [runStep, modifyReg_ok a _ hb ht, afterModify, afterSeq, vendorWire, Wire.preceded, vendorModify, afterReg, addrW, addrR,
      regEvents, ht, hc, orMask]
  | rc a m =>
    simp [runStep, modifyReg_ok a _ hb ht, afterModify, afterSeq, vendorWire, Wire.preceded, vendorModify, afterReg, addrW, addrR,
      regEvents, ht, hc, andNotMask]
  | dl ms => simp [runStep, delay_ok ms ht, afterSeq, vendorWire, Wire.preceded, emit]

theorem vendorWire_cons (P : Params) (v : VendorStep) (seq : List VendorStep) (sr tmp : Byte) (p : Peripheral) :
    vendorWire P (v :: seq) sr tmp p =
      (vendorWire P seq (vendorWire P [v] sr tmp p).sr (vendorWire P [v] sr tmp p).tmp
        (vendorWire P [v] sr tmp p).periph).preceded (vendorWire P [v] sr tmp p).events := by
  cases v <;> simp [vendorWire, Wire.preceded]

theorem runSeq_ok (seq : List VendorStep) : ∀ {s : State}, s.bound = true → s.txn = false → s.cs = true →
    runSeq seq s = .ok (afterSeq seq s) := by
  induction seq with
  | nil =>
    intro s hb ht hc
    cases s with
    | mk => simp [runSeq, afterSeq, vendorWire]; rename_i ph _ _ _ _ _; cases ph <;> simp [Phase.advance]
  | cons v seq ih =>
    intro s hb ht hc
    have h1 := runStep_ok v hb ht hc
    simp only [runSeq, h1]
    rw [ih (s := afterSeq [v] s) hb ht hc]
    simp only [afterSeq]
    rw [vendorWire_cons s.cfg v seq]
    simp [Wire.preceded]

end Sys2Proof.Machine
end

