-- ==== Sys2Proof/Laws/Admission.lean ====
section
/-! SUPPORT. Admission (60_exceptions.md R170): what `Ready` and `Bursting` say of a state, that a driver command runs there, and
the three refusals the rules of the driver commands share. -/

namespace Sys2Proof.Machine

theorem State.Ready.txn {s : State} {d : Driver} (h : s.Ready d) : s.txn = false := by rw [h.inv.txn_eq_burst, h.noBurst]
theorem State.Ready.cs {s : State} {d : Driver} (h : s.Ready d) : s.cs = true := by
  have k := h.inv.txn_iff_low
  rw [h.txn] at k
  simpa using k
theorem State.Ready.phase {s : State} {d : Driver} (h : s.Ready d) : s.phase = .idle := h.inv.idle
theorem State.Ready.isBound {s : State} {d : Driver} (h : s.Ready d) : s.bound = true := by simp [State.bound, h.driver]
theorem State.Bursting.txn {s : State} {d : Driver} (h : s.Bursting d) : s.txn = true := by rw [h.inv.txn_eq_burst, h.inBurst]
theorem State.Bursting.cs {s : State} {d : Driver} (h : s.Bursting d) : s.cs = false := h.inv.txn_iff_low.1 h.txn

theorem runDriver_ready {i : Instr} {s : State} {d : Driver} {body : Driver → State → Exec} (h : s.Ready d)
    (he : enumOk i s.cfg d.model = true) (hn : needsReader i = false) : runDriver i s body = complete (body d (begin i s)) :=
  runDriver_run h.driver he (by rw [h.noBurst, hn])

theorem runDriver_bursting {i : Instr} {s : State} {d : Driver} {body : Driver → State → Exec} (h : s.Bursting d)
    (he : enumOk i s.cfg d.model = true) (hn : needsReader i = true) : runDriver i s body = complete (body d (begin i s)) :=
  runDriver_run h.driver he (by rw [h.inBurst, hn])

/-- At a command boundary a refusal is `turnedAway` (R172). -/
theorem refuse_eq_turnedAway {s : State} {e : Err} (h : s.phase = .idle) : refuse e s = s.turnedAway e := by
  simp [refuse, State.turnedAway, State.answered, finish, State.response, h]

/-- A malformed word is refused with `E_ILLEGAL`, whichever command it would be (R74). -/
theorem malformed_is_illegal (i : Instr) : malformedIsIllegal i := by
  intro w s rest hop hun hp hin
  have hd : ∃ e, decode w = .error e := by
    unfold decode
    rw [hop]
    cases i <;> simp_all [Instr.row, formed]
  obtain ⟨e, he⟩ := hd
  simp [step, hin, State.cmdReady, hp, takeWord, he, refused, refuse_eq_turnedAway]

/-- A driver command is refused with `E_UNBOUND` while BOUND = 0 (R175). -/
theorem driver_command_unbound (i : Instr) (hn : needsNoDriver i = false) : refusedUnbound i := by
  intro s hp hb
  have hd : s.driver = none := by simpa [State.bound] using hb
  rw [← refuse_eq_turnedAway hp]
  change _ = refused _ _
  cases i <;> simp [needsNoDriver] at hn <;>
    simp only [exec, execRelease, execWriteReg, execReadReg, execSetBit, execClearBit, execGetBit, execSensorRd, execSensorWr,
      execGetChipIdHigh, execGetChipIdLow, execGetChipId, execResetCpld, execInitCam, execSetFormat, execSetJpegSize,
      execStartCapture, execCaptureComplete, execReadFifoLength, execFlushFifo, execClearFifoFlag, execBurstOpen, execBurstNext,
      execBurstClose] <;>
    exact runDriver_unbound hd

/-- A driver command is refused with `E_LEASE` while BURST has the value it cannot run with (R176). -/
theorem driver_command_lease (i : Instr) (hn : needsNoDriver i = false) : refusedLease i (!needsReader i) := by
  intro s d hp hd he hb
  have hb' : s.burst ≠ needsReader i := by rw [hb]; cases needsReader i <;> simp
  rw [← refuse_eq_turnedAway hp]
  change _ = refused _ _
  cases i <;> simp [needsNoDriver] at hn <;>
    simp only [exec, execRelease, execWriteReg, execReadReg, execSetBit, execClearBit, execGetBit, execSensorRd, execSensorWr,
      execGetChipIdHigh, execGetChipIdLow, execGetChipId, execResetCpld, execInitCam, execSetFormat, execSetJpegSize,
      execStartCapture, execCaptureComplete, execReadFifoLength, execFlushFifo, execClearFifoFlag, execBurstOpen, execBurstNext,
      execBurstClose] <;>
    exact runDriver_lease hd he hb'

end Sys2Proof.Machine
end

