-- ==== Sys2Proof/Laws/Bus.lean ====
section
/-! SUPPORT. What every bus operation leaves alone, said once: from any state, a micro-operation, a register access and a vendor
sequence that answer at all change nothing but CS, TXN, SR, TMP, PHASE, the trace (which grows at its end) and the peripheral;
and they do not see CAP, ERR and S_PRECOND. -/

namespace Sys2Proof.Machine

/-- `t` is `s` but for what the bus operations write. -/
structure BusOnly (s t : State) : Prop where
  driver : t.driver = s.driver
  burst : t.burst = s.burst
  cap : t.cap = s.cap
  result : t.result = s.result
  tResetMs : t.tResetMs = s.tResetMs
  err : t.err = s.err
  sRefused : t.sRefused = s.sRefused
  sPrecond : t.sPrecond = s.sPrecond
  sSbaddr : t.sSbaddr = s.sSbaddr
  sRawmgd : t.sRawmgd = s.sRawmgd
  cfg : t.cfg = s.cfg
  inputs : t.inputs = s.inputs
  responses : t.responses = s.responses
  trace : ∃ es, t.trace = s.trace ++ es

theorem BusOnly.refl (s : State) : BusOnly s s := by constructor <;> first | rfl | exact ⟨[], by simp⟩

theorem BusOnly.trans {s t u : State} (h : BusOnly s t) (k : BusOnly t u) : BusOnly s u := by
  obtain ⟨es, he⟩ := h.trace
  obtain ⟨fs, hf⟩ := k.trace
  exact ⟨k.driver.trans h.driver, k.burst.trans h.burst, k.cap.trans h.cap, k.result.trans h.result,
    k.tResetMs.trans h.tResetMs, k.err.trans h.err, k.sRefused.trans h.sRefused, k.sPrecond.trans h.sPrecond,
    k.sSbaddr.trans h.sSbaddr, k.sRawmgd.trans h.sRawmgd, k.cfg.trans h.cfg, k.inputs.trans h.inputs,
    k.responses.trans h.responses, ⟨es ++ fs, by rw [hf, he, List.append_assoc]⟩⟩

theorem csLow_busOnly {s t : State} (h : csLow s = .ok t) : BusOnly s t := by
  obtain ⟨-, -, rfl⟩ := csLow_next h
  constructor <;> first | rfl | exact ⟨_, rfl⟩

theorem csHigh_busOnly {s t : State} (h : csHigh s = .ok t) : BusOnly s t := by
  obtain ⟨-, rfl⟩ := csHigh_next h
  constructor <;> first | rfl | exact ⟨_, rfl⟩

theorem xfer_busOnly {s : State} {out : Byte} {r : Byte × State} (h : xfer out s = .ok r) : BusOnly s r.2 := by
  obtain ⟨-, -, h2⟩ := xfer_next h
  rw [h2]
  constructor <;> first | rfl | exact ⟨_, rfl⟩

theorem delay_busOnly {s t : State} {ms : Half} (h : delay ms s = .ok t) : BusOnly s t := by
  unfold delay at h
  split at h
  · simp at h
  · cases h; constructor <;> first | rfl | exact ⟨_, rfl⟩

theorem sbRead_busOnly {s : State} {a : Half} {r : Byte × State} (h : sbRead a s = .ok r) : BusOnly s r.2 := by
  unfold sbRead at h
  split at h
  · simp at h
  · cases h; constructor <;> first | rfl | exact ⟨_, rfl⟩

theorem sbWrite_busOnly {s t : State} {a : Half} {v : Byte} (h : sbWrite a v s = .ok t) : BusOnly s t := by
  unfold sbWrite at h
  split at h
  · simp at h
  · cases h; constructor <;> first | rfl | exact ⟨_, rfl⟩

theorem afterReg_busOnly (o p : Byte) (s : State) : BusOnly s (afterReg o p s) := by
  constructor <;> first | rfl | exact ⟨_, rfl⟩

theorem writeReg_busOnly {s t : State} {a v : Byte} (h : writeReg a v s = .ok t) : BusOnly s t := by
  obtain ⟨hb, ht⟩ := writeReg_next h
  rw [writeReg_ok a v hb ht] at h
  cases h
  exact afterReg_busOnly _ _ _

theorem readReg_busOnly {s : State} {a : Byte} {r : Byte × State} (h : readReg a s = .ok r) : BusOnly s r.2 := by
  obtain ⟨hb, ht⟩ := readReg_next h
  rw [readReg_ok a hb ht] at h
  cases h
  exact afterReg_busOnly _ _ _

theorem modifyReg_busOnly {s t : State} {a : Byte} {f : Byte → Byte} (h : modifyReg a f s = .ok t) : BusOnly s t := by
  unfold modifyReg at h
  cases hr : readReg a s with
  | error e => rw [hr] at h; simp at h
  | ok r =>
    obtain ⟨b, u⟩ := r
    rw [hr] at h
    simp only [Exec.ok_bind] at h
    have h1 := readReg_busOnly hr
    have h2 := writeReg_busOnly h
    exact h1.trans ⟨h2.driver, h2.burst, h2.cap, h2.result, h2.tResetMs, h2.err, h2.sRefused, h2.sPrecond, h2.sSbaddr,
      h2.sRawmgd, h2.cfg, h2.inputs, h2.responses, h2.trace⟩

theorem runStep_busOnly {s t : State} {v : VendorStep} (h : runStep v s = .ok t) : BusOnly s t := by
  cases v <;> simp only [runStep] at h
  case sw => exact sbWrite_busOnly h
  case rw => exact writeReg_busOnly h
  case rs => exact modifyReg_busOnly h
  case rc => exact modifyReg_busOnly h
  case dl => exact delay_busOnly h

theorem runSeq_busOnly (seq : List VendorStep) : ∀ {s t : State}, runSeq seq s = .ok t → BusOnly s t := by
  induction seq with
  | nil => intro s t h; cases h; exact BusOnly.refl s
  | cons v seq ih =>
    intro s t h
    unfold runSeq at h
    cases hv : runStep v s with
    | error e => rw [hv] at h; simp at h
    | ok u => rw [hv] at h; exact (runStep_busOnly hv).trans (ih h)

/-! ### The bus does not see CAP, ERR and S_PRECOND -/

/-- A state with another CAP, ERR and S_PRECOND. -/
def State.retag (c : CapState) (e : Err) (p : Bool) (s : State) : State := { s with cap := c, err := e, sPrecond := p }

/-- The same for the outcome of an operation. -/
def Exec.retag (c : CapState) (e : Err) (p : Bool) (r : Exec) : Exec :=
  match r with
  | .ok s => .ok (s.retag c e p)
  | .error f => .error f

@[simp] theorem Exec.retag_ok (c : CapState) (e : Err) (p : Bool) (s : State) :
    Exec.retag c e p (.ok s) = .ok (s.retag c e p) := rfl
@[simp] theorem Exec.retag_error (c : CapState) (e : Err) (p : Bool) (f : Fault) :
    Exec.retag c e p (.error f) = .error f := rfl

theorem csLow_retag (c : CapState) (e : Err) (p : Bool) (s : State) :
    csLow (s.retag c e p) = Exec.retag c e p (csLow s) := by
  unfold csLow State.retag State.bound
  split
  · split <;> simp [Exec.retag, State.retag, emit]
  · simp

theorem csHigh_retag (c : CapState) (e : Err) (p : Bool) (s : State) :
    csHigh (s.retag c e p) = Exec.retag c e p (csHigh s) := by
  unfold csHigh State.retag
  split <;> simp [Exec.retag, State.retag, emit]

theorem xfer_retag (c : CapState) (e : Err) (p : Bool) (out : Byte) (s : State) :
    xfer out (s.retag c e p) = (xfer out s).map fun r => (r.1, r.2.retag c e p) := by
  unfold xfer State.retag
  split <;> simp [Except.map, emit]

theorem delay_retag (c : CapState) (e : Err) (p : Bool) (ms : Half) (s : State) :
    delay ms (s.retag c e p) = Exec.retag c e p (delay ms s) := by
  unfold delay State.retag
  split <;> simp [Exec.retag, State.retag, emit]

theorem sbRead_retag (c : CapState) (e : Err) (p : Bool) (a : Half) (s : State) :
    sbRead a (s.retag c e p) = (sbRead a s).map fun r => (r.1, r.2.retag c e p) := by
  unfold sbRead State.retag
  split <;> simp [Except.map, emit]

theorem sbWrite_retag (c : CapState) (e : Err) (p : Bool) (a : Half) (v : Byte) (s : State) :
    sbWrite a v (s.retag c e p) = Exec.retag c e p (sbWrite a v s) := by
  unfold sbWrite State.retag
  split <;> simp [Exec.retag, State.retag, emit]

theorem writeReg_retag (c : CapState) (e : Err) (p : Bool) (a v : Byte) (s : State) :
    writeReg a v (s.retag c e p) = Exec.retag c e p (writeReg a v s) := by
  unfold writeReg
  rw [csLow_retag]
  cases csLow s with
  | error f => rfl
  | ok s1 =>
    simp only [Exec.retag_ok, Exec.ok_bind]
    rw [xfer_retag]
    change (Except.map _ (xfer (addrW s1.cfg a) s1) >>= _) = _
    cases xfer (addrW s1.cfg a) s1 with
    | error f => rfl
    | ok r =>
      simp only [Except.map, Exec.ok_bind]
      rw [xfer_retag]
      cases xfer v r.2 with
      | error f => rfl
      | ok q => exact csHigh_retag c e p q.2

theorem readReg_retag (c : CapState) (e : Err) (p : Bool) (a : Byte) (s : State) :
    readReg a (s.retag c e p) = (readReg a s).map fun r => (r.1, r.2.retag c e p) := by
  unfold readReg
  rw [csLow_retag]
  cases csLow s with
  | error f => rfl
  | ok s1 =>
    simp only [Exec.retag_ok, Exec.ok_bind]
    rw [xfer_retag]
    change (Except.map _ (xfer (addrR s1.cfg a) s1) >>= _) = _
    cases xfer (addrR s1.cfg a) s1 with
    | error f => rfl
    | ok r =>
      simp only [Except.map, Exec.ok_bind]
      rw [xfer_retag]
      change (Except.map _ (xfer r.2.cfg.DUMMY r.2) >>= _) = _
      cases xfer r.2.cfg.DUMMY r.2 with
      | error f => rfl
      | ok q =>
        simp only [Except.map, Exec.ok_bind]
        rw [csHigh_retag]
        cases csHigh q.2 <;> rfl

theorem modifyReg_retag (c : CapState) (e : Err) (p : Bool) (a : Byte) (f : Byte → Byte) (s : State) :
    modifyReg a f (s.retag c e p) = Exec.retag c e p (modifyReg a f s) := by
  unfold modifyReg
  rw [readReg_retag]
  cases readReg a s with
  | error g => rfl
  | ok r =>
    obtain ⟨b, u⟩ := r
    simp only [Except.map, Exec.ok_bind]
    rw [← writeReg_retag]
    rfl

theorem runStep_retag (c : CapState) (e : Err) (p : Bool) (v : VendorStep) (s : State) :
    runStep v (s.retag c e p) = Exec.retag c e p (runStep v s) := by
  cases v <;> simp only [runStep]
  case sw a x => exact sbWrite_retag c e p a x s
  case rw a x => exact writeReg_retag c e p a x s
  case rs a m => exact modifyReg_retag c e p a _ s
  case rc a m => exact modifyReg_retag c e p a _ s
  case dl ms => exact delay_retag c e p ms s

theorem runSeq_retag (c : CapState) (e : Err) (p : Bool) (seq : List VendorStep) :
    ∀ s : State, runSeq seq (s.retag c e p) = Exec.retag c e p (runSeq seq s) := by
  induction seq with
  | nil => intro s; rfl
  | cons v seq ih =>
    intro s
    simp only [runSeq, runStep_retag]
    cases runStep v s with
    | error f => rfl
    | ok t => exact ih t

end Sys2Proof.Machine
end

