-- ==== Sys2Proof/Laws/Exec.lean ====
section
/-! SUPPORT. The inversions of `exec` and of `step`: once, for all commands, what can have happened when one ends. -/

set_option linter.unusedSimpArgs false

namespace Sys2Proof.Machine

theorem Exec.bind_ok_iff {α β : Type} {x : Except Fault α} {f : α → Except Fault β} {r : β} :
    (x >>= f) = .ok r ↔ ∃ a, x = .ok a ∧ f a = .ok r := by
  cases x <;> simp

/-- What an executed command has done when it ends, said once for all commands: `s` is the state it was given, `u` the state
before its response. -/
structure Ran (i : Instr) (s u : State) : Prop where
  driver : (∀ pin model, i = .bind pin model → u.driver = some ⟨pin, model⟩ ∧ s.cfg.modelValid model = true) ∧
     (i = .release → u.driver = none) ∧ ((∀ pin model, i ≠ .bind pin model) → i ≠ .release → u.driver = s.driver)
  cap : s.cap ∈ legalIn i → u.cap = capAfter i u.result s.cap ∧ u.sPrecond = s.sPrecond ∧ u.err ≠ .precond
  cap' : s.cap ∉ legalIn i → u.cap = s.cap ∧ u.sPrecond = true ∧ u.err = .precond
  err : u.err ∉ refusalCodes
  sRefused : u.sRefused = s.sRefused
  sSbaddr : u.sSbaddr = s.sSbaddr ∨ (rawCommand i = true ∧ u.sSbaddr = true)
  sRawmgd : u.sRawmgd = s.sRawmgd ∨ (rawCommand i = true ∧ u.sRawmgd = true)
  cfg : u.cfg = s.cfg
  inputs : u.inputs = s.inputs
  responses : u.responses = s.responses
  trace : ∃ es, u.trace = s.trace ++ es

theorem BusOnly.ran0 {i : Instr} {s v : State} (r : Word) (h : BusOnly (begin i s) v) (hl : ∀ c, c ∈ legalIn i) (hc : ∀ r, capAfter i r s.cap = s.cap)
   (h1 : ∀ p m, i ≠ .bind p m) (h2 : i ≠ .release) : Ran i s { v with result := r } := by
  have e : v.err = .ok := h.err
  constructor
  · exact ⟨fun p m he => absurd he (h1 p m), fun he => absurd he h2, fun _ _ => h.driver⟩
  · intro _; exact ⟨by rw [hc]; exact h.cap, h.sPrecond, by simp [e]⟩
  · intro hh; exact absurd (hl _) hh
  · simp [e, refusalCodes]
  · exact h.sRefused
  · exact .inl h.sSbaddr
  · exact .inl h.sRawmgd
  · exact h.cfg
  · exact h.inputs
  · exact h.responses
  · exact h.trace

theorem BusOnly.ranFlag {i : Instr} {s w v : State} (r : Word) (hw : w = begin i s ∨ w = flagRawmgd (begin i s) ∨ w = flagSbaddr (begin i s)) (h : BusOnly w v)
   (hraw : rawCommand i = true) (hl : ∀ c, c ∈ legalIn i) (hc : ∀ r, capAfter i r s.cap = s.cap)
   (h1 : ∀ p m, i ≠ .bind p m) (h2 : i ≠ .release) : Ran i s { v with result := r } := by
  rcases hw with rfl | rfl | rfl
  · exact h.ran0 r hl hc h1 h2
  all_goals
  · have e := h.err
    simp at e
    constructor
    · exact ⟨fun p m he => absurd he (h1 p m), fun he => absurd he h2, fun _ _ => h.driver⟩
    · intro _; exact ⟨by rw [hc]; exact h.cap, h.sPrecond, by simp [e]⟩
    · intro hh; exact absurd (hl _) hh
    · simp [e, refusalCodes]
    · exact h.sRefused
    · first | exact .inl h.sSbaddr | exact .inr ⟨hraw, h.sSbaddr⟩
    · first | exact .inl h.sRawmgd | exact .inr ⟨hraw, h.sRawmgd⟩
    · exact h.cfg
    · exact h.inputs
    · exact h.responses
    · exact h.trace

theorem check_legal {l : List CapState} {s : State} (h : s.cap ∈ l) : check l s = s ∧ capOk l s = true := by
  have : capOk l s = true := by simpa [capOk] using h
  simp [check, this]
theorem check_violated {l : List CapState} {s : State} (h : s.cap ∉ l) : check l s = flagPrecond s ∧ capOk l s = false := by
  have : capOk l s = false := by simpa [capOk] using h
  simp [check, this]

/-- A command with a precondition (R141): the check, bus operations, and CAP moved where the check passed and `mv` holds. -/
theorem BusOnly.ranCap {i : Instr} {s v u : State} {l : List CapState} {c : CapState} {mv : Bool} (r : Word) (h : BusOnly (check l (begin i s)) v)
   (hl : legalIn i = l) (hu : u = { moveCap (capOk l (begin i s) && mv) c v with result := r })
   (hc : s.cap ∈ l → capAfter i r s.cap = if mv then c else s.cap)
   (h1 : ∀ p m, i ≠ .bind p m) (h2 : i ≠ .release) : Ran i s u := by
  subst hu
  by_cases hm : s.cap ∈ l
  · obtain ⟨k1, k2⟩ := check_legal (s := begin i s) hm
    rw [k1] at h
    have e := h.err
    simp at e
    rw [k2]
    constructor
    · exact ⟨fun p m he => absurd he (h1 p m), fun he => absurd he h2, fun _ _ => by cases mv <;> simpa [moveCap] using h.driver⟩
    · intro _; have := h.cap; have := h.sPrecond; refine ⟨?_, ?_, ?_⟩ <;> cases mv <;> simp_all [moveCap]
    · intro hh; rw [hl] at hh; exact absurd hm hh
    · cases mv <;> simp [e, refusalCodes, moveCap]
    · have := h.sRefused;  cases mv <;> simp_all [moveCap]
    · have := h.sSbaddr;  cases mv <;> simp_all [moveCap]
    · have := h.sRawmgd;  cases mv <;> simp_all [moveCap]
    · have := h.cfg;  cases mv <;> simp_all [moveCap]
    · have := h.inputs;  cases mv <;> simp_all [moveCap]
    · have := h.responses;  cases mv <;> simp_all [moveCap]
    · have := h.trace;  cases mv <;> simp_all [moveCap]
  · obtain ⟨k1, k2⟩ := check_violated (s := begin i s) hm
    rw [k1] at h
    have e := h.err
    simp at e
    rw [k2]
    constructor
    · exact ⟨fun p m he => absurd he (h1 p m), fun he => absurd he h2, fun _ _ => by cases mv <;> simpa [moveCap] using h.driver⟩
    · intro hh; rw [hl] at hh; exact absurd hh hm
    · intro _; have := h.cap; have := h.sPrecond; refine ⟨?_, ?_, ?_⟩ <;> cases mv <;> simp_all [moveCap]
    · cases mv <;> simp [e, refusalCodes, moveCap]
    · have := h.sRefused;  cases mv <;> simp_all [moveCap]
    · have := h.sSbaddr;  cases mv <;> simp_all [moveCap]
    · have := h.sRawmgd;  cases mv <;> simp_all [moveCap]
    · have := h.cfg;  cases mv <;> simp_all [moveCap]
    · have := h.inputs;  cases mv <;> simp_all [moveCap]
    · have := h.responses;  cases mv <;> simp_all [moveCap]
    · have := h.trace;  cases mv <;> simp_all [moveCap]

/-- How `exec` can end: refused with one of the codes 1 to 4 (`E_ILLEGAL` only for an enumerated operand), or executed. -/
def Ended (i : Instr) (s t : State) : Prop :=
  (∃ e, e ∈ refusalCodes ∧ t = refuse e s ∧ (e = .illegal → (∃ pin model, i = .bind pin model) ∨ (∃ f, i = .setFormat f) ∨ (∃ z, i = .setJpegSize z))) ∨ ∃ u, t = finish u ∧ Ran i s u

theorem runDriver_ended {i : Instr} {s t : State} {body} (h : runDriver i s body = .next t)
   (hb : ∀ d u, s.driver = some d → s.burst = needsReader i → body d (begin i s) = .ok u → Ran i s u) : Ended i s t := by
  rcases runDriver_cases i s body with ⟨-, hr⟩ | ⟨d, hd, he, hr⟩ | ⟨d, hd, he, hbu, hr⟩ | ⟨d, hd, he, hbu, hr⟩ <;> rw [hr] at h
  · cases h; exact .inl ⟨.unbound, by simp [refusalCodes], rfl, by simp⟩
  · cases h; refine .inl ⟨.illegal, by simp [refusalCodes], rfl, ?_⟩
    intro _; cases i <;> simp_all [enumOk]
  · cases h; exact .inl ⟨.lease, by simp [refusalCodes], rfl, by simp⟩
  · obtain ⟨u, hu, rfl⟩ := complete_next h
    exact .inr ⟨u, rfl, hb d u hd hbu hu⟩

theorem mem_allCaps (c : CapState) : c ∈ [CapState.uninitialized, .reset, .configured, .capturing, .frameReady] := by cases c <;> simp

/-- The inversion of `exec`: every other fact about all commands follows from it. -/
theorem exec_ended (i : Instr) (s t : State) (h : exec i s = .next t) : Ended i s t := by
  cases i
  case bind pin model =>
    simp only [exec, execBind, runBind] at h
    split at h
    · rename_i hm
      split at h
      · cases h; exact .inl ⟨.bound, by simp [refusalCodes], rfl, by simp⟩
      · obtain ⟨u, hu, rfl⟩ := complete_next h
        cases hu
        refine .inr ⟨_, rfl, ?_⟩
        constructor <;> simp [legalIn, mem_allCaps, capAfter, refusalCodes, hm]
        intro h; cases hh : s.cap <;> simp_all
    · cases h; exact .inl ⟨.illegal, by simp [refusalCodes], rfl, fun _ => .inl ⟨_, _, rfl⟩⟩
  case release =>
    simp only [exec, execRelease, execWriteReg, execReadReg, execSetBit, execClearBit, execGetBit, execSensorRd, execSensorWr,
      execGetChipIdHigh, execGetChipIdLow, execGetChipId, execResetCpld, execInitCam, execSetFormat, execSetJpegSize,
      execStartCapture, execCaptureComplete, execReadFifoLength, execFlushFifo, execClearFifoFlag, execBurstOpen, execBurstNext,
      execBurstClose] at h
    refine runDriver_ended h fun d u hd hb hu => ?_
    cases hu
    constructor <;> simp [legalIn, mem_allCaps, capAfter, refusalCodes]
    intro h; cases hh : s.cap <;> simp_all
  case status =>
    simp only [exec, execStatus, runAlways] at h
    obtain ⟨u, hu, rfl⟩ := complete_next h
    cases hu
    exact .inr ⟨_, rfl, (BusOnly.refl _).ran0 _ mem_allCaps (fun _ => rfl) (by simp) (by simp)⟩
  case setdly =>
    simp only [exec, execSetdly, runAlways] at h
    obtain ⟨u, hu, rfl⟩ := complete_next h
    cases hu
    refine .inr ⟨_, rfl, ?_⟩
    constructor <;> simp [legalIn, mem_allCaps, capAfter, refusalCodes]
    intro h; cases hh : s.cap <;> simp_all
  case writeReg a v =>
    simp only [exec, execRelease, execWriteReg, execReadReg, execSetBit, execClearBit, execGetBit, execSensorRd, execSensorWr,
      execGetChipIdHigh, execGetChipIdLow, execGetChipId, execResetCpld, execInitCam, execSetFormat, execSetJpegSize,
      execStartCapture, execCaptureComplete, execReadFifoLength, execFlushFifo, execClearFifoFlag, execBurstOpen, execBurstNext,
      execBurstClose] at h
    refine runDriver_ended h fun d u hd hb hu => ?_
    simp only [Exec.bind_ok_iff, Exec.pure_eq] at hu
    obtain ⟨w, hw, hu⟩ := hu; cases hu
    refine (writeReg_busOnly hw).ranFlag _ ?_ rfl mem_allCaps (fun _ => rfl) (by simp) (by simp)
    unfold flagManaged; split <;> simp
  case readReg a =>
    simp only [exec, execRelease, execWriteReg, execReadReg, execSetBit, execClearBit, execGetBit, execSensorRd, execSensorWr,
      execGetChipIdHigh, execGetChipIdLow, execGetChipId, execResetCpld, execInitCam, execSetFormat, execSetJpegSize,
      execStartCapture, execCaptureComplete, execReadFifoLength, execFlushFifo, execClearFifoFlag, execBurstOpen, execBurstNext,
      execBurstClose] at h
    refine runDriver_ended h fun d u hd hb hu => ?_
    simp only [Exec.bind_ok_iff, Exec.pure_eq] at hu
    obtain ⟨w, hw, hu⟩ := hu; cases hu
    exact (readReg_busOnly hw).ran0 _ mem_allCaps (fun _ => rfl) (by simp) (by simp)
  case setBit a v =>
    simp only [exec, execRelease, execWriteReg, execReadReg, execSetBit, execClearBit, execGetBit, execSensorRd, execSensorWr,
      execGetChipIdHigh, execGetChipIdLow, execGetChipId, execResetCpld, execInitCam, execSetFormat, execSetJpegSize,
      execStartCapture, execCaptureComplete, execReadFifoLength, execFlushFifo, execClearFifoFlag, execBurstOpen, execBurstNext,
      execBurstClose] at h
    refine runDriver_ended h fun d u hd hb hu => ?_
    simp only [Exec.bind_ok_iff, Exec.pure_eq] at hu
    obtain ⟨w, hw, hu⟩ := hu; cases hu
    refine (modifyReg_busOnly hw).ranFlag _ ?_ rfl mem_allCaps (fun _ => rfl) (by simp) (by simp)
    unfold flagManaged; split <;> simp
  case clearBit a v =>
    simp only [exec, execRelease, execWriteReg, execReadReg, execSetBit, execClearBit, execGetBit, execSensorRd, execSensorWr,
      execGetChipIdHigh, execGetChipIdLow, execGetChipId, execResetCpld, execInitCam, execSetFormat, execSetJpegSize,
      execStartCapture, execCaptureComplete, execReadFifoLength, execFlushFifo, execClearFifoFlag, execBurstOpen, execBurstNext,
      execBurstClose] at h
    refine runDriver_ended h fun d u hd hb hu => ?_
    simp only [Exec.bind_ok_iff, Exec.pure_eq] at hu
    obtain ⟨w, hw, hu⟩ := hu; cases hu
    refine (modifyReg_busOnly hw).ranFlag _ ?_ rfl mem_allCaps (fun _ => rfl) (by simp) (by simp)
    unfold flagManaged; split <;> simp
  case getBit a v =>
    simp only [exec, execRelease, execWriteReg, execReadReg, execSetBit, execClearBit, execGetBit, execSensorRd, execSensorWr,
      execGetChipIdHigh, execGetChipIdLow, execGetChipId, execResetCpld, execInitCam, execSetFormat, execSetJpegSize,
      execStartCapture, execCaptureComplete, execReadFifoLength, execFlushFifo, execClearFifoFlag, execBurstOpen, execBurstNext,
      execBurstClose] at h
    refine runDriver_ended h fun d u hd hb hu => ?_
    simp only [Exec.bind_ok_iff, Exec.pure_eq] at hu
    obtain ⟨w, hw, hu⟩ := hu; cases hu
    exact (readReg_busOnly hw).ran0 _ mem_allCaps (fun _ => rfl) (by simp) (by simp)
  case sensorRd a =>
    simp only [exec, execRelease, execWriteReg, execReadReg, execSetBit, execClearBit, execGetBit, execSensorRd, execSensorWr,
      execGetChipIdHigh, execGetChipIdLow, execGetChipId, execResetCpld, execInitCam, execSetFormat, execSetJpegSize,
      execStartCapture, execCaptureComplete, execReadFifoLength, execFlushFifo, execClearFifoFlag, execBurstOpen, execBurstNext,
      execBurstClose] at h
    refine runDriver_ended h fun d u hd hb hu => ?_
    simp only [Exec.bind_ok_iff, Exec.pure_eq] at hu
    obtain ⟨w, hw, hu⟩ := hu; cases hu
    refine (sbRead_busOnly hw).ranFlag _ ?_ rfl mem_allCaps (fun _ => rfl) (by simp) (by simp)
    unfold flagAddr; split <;> simp
  case sensorWr a v =>
    simp only [exec, execRelease, execWriteReg, execReadReg, execSetBit, execClearBit, execGetBit, execSensorRd, execSensorWr,
      execGetChipIdHigh, execGetChipIdLow, execGetChipId, execResetCpld, execInitCam, execSetFormat, execSetJpegSize,
      execStartCapture, execCaptureComplete, execReadFifoLength, execFlushFifo, execClearFifoFlag, execBurstOpen, execBurstNext,
      execBurstClose] at h
    refine runDriver_ended h fun d u hd hb hu => ?_
    simp only [Exec.bind_ok_iff, Exec.pure_eq] at hu
    obtain ⟨w, hw, hu⟩ := hu; cases hu
    have k := sbWrite_busOnly hw
    have e := k.err
    by_cases hm : s.cap ∈ sensorWrLegal
    · have hs := (check_legal (s := begin (.sensorWr a v) s) hm).1
      rw [hs] at k e
      constructor
      · simp; rw [k.driver]; unfold flagAddr; split <;> rfl
      · intro _; refine ⟨?_, ?_, ?_⟩
        · simp [capAfter]; rw [k.cap]; unfold flagAddr; split <;> rfl
        · rw [k.sPrecond]; unfold flagAddr; split <;> rfl
        · simp; rw [e]; unfold flagAddr; split <;> simp
      · exact fun hh => absurd hm hh
      · simp; rw [e]; unfold flagAddr; split <;> simp [refusalCodes]
      · rw [k.sRefused]; unfold flagAddr; split <;> rfl
      · rw [k.sSbaddr]; unfold flagAddr; split <;> simp [rawCommand]
      · rw [k.sRawmgd]; unfold flagAddr; split <;> simp [rawCommand]
      · rw [k.cfg]; unfold flagAddr; split <;> rfl
      · rw [k.inputs]; unfold flagAddr; split <;> rfl
      · rw [k.responses]; unfold flagAddr; split <;> rfl
      · have := k.trace; unfold flagAddr at this; split at this <;> exact this
    · have hs := (check_violated (s := begin (.sensorWr a v) s) hm).1
      rw [hs] at k e
      constructor
      · simp; rw [k.driver]; unfold flagAddr; split <;> rfl
      · exact fun hh => absurd hh hm
      · intro _; refine ⟨?_, ?_, ?_⟩
        · rw [k.cap]; unfold flagAddr; split <;> rfl
        · rw [k.sPrecond]; unfold flagAddr; split <;> rfl
        · simp; rw [e]; unfold flagAddr; split <;> simp
      · simp; rw [e]; unfold flagAddr; split <;> simp [refusalCodes]
      · rw [k.sRefused]; unfold flagAddr; split <;> rfl
      · rw [k.sSbaddr]; unfold flagAddr; split <;> simp [rawCommand]
      · rw [k.sRawmgd]; unfold flagAddr; split <;> simp [rawCommand]
      · rw [k.cfg]; unfold flagAddr; split <;> rfl
      · rw [k.inputs]; unfold flagAddr; split <;> rfl
      · rw [k.responses]; unfold flagAddr; split <;> rfl
      · have := k.trace; unfold flagAddr at this; split at this <;> exact this
  case getChipIdHigh =>
    simp only [exec, execRelease, execWriteReg, execReadReg, execSetBit, execClearBit, execGetBit, execSensorRd, execSensorWr,
      execGetChipIdHigh, execGetChipIdLow, execGetChipId, execResetCpld, execInitCam, execSetFormat, execSetJpegSize,
      execStartCapture, execCaptureComplete, execReadFifoLength, execFlushFifo, execClearFifoFlag, execBurstOpen, execBurstNext,
      execBurstClose] at h
    refine runDriver_ended h fun d u hd hb hu => ?_
    simp only [Exec.bind_ok_iff, Exec.pure_eq] at hu
    obtain ⟨w, hw, hu⟩ := hu; cases hu
    exact (sbRead_busOnly hw).ran0 _ mem_allCaps (fun _ => rfl) (by simp) (by simp)
  case getChipIdLow =>
    simp only [exec, execRelease, execWriteReg, execReadReg, execSetBit, execClearBit, execGetBit, execSensorRd, execSensorWr,
      execGetChipIdHigh, execGetChipIdLow, execGetChipId, execResetCpld, execInitCam, execSetFormat, execSetJpegSize,
      execStartCapture, execCaptureComplete, execReadFifoLength, execFlushFifo, execClearFifoFlag, execBurstOpen, execBurstNext,
      execBurstClose] at h
    refine runDriver_ended h fun d u hd hb hu => ?_
    simp only [Exec.bind_ok_iff, Exec.pure_eq] at hu
    obtain ⟨w, hw, hu⟩ := hu; cases hu
    exact (sbRead_busOnly hw).ran0 _ mem_allCaps (fun _ => rfl) (by simp) (by simp)
  case getChipId =>
    simp only [exec, execRelease, execWriteReg, execReadReg, execSetBit, execClearBit, execGetBit, execSensorRd, execSensorWr,
      execGetChipIdHigh, execGetChipIdLow, execGetChipId, execResetCpld, execInitCam, execSetFormat, execSetJpegSize,
      execStartCapture, execCaptureComplete, execReadFifoLength, execFlushFifo, execClearFifoFlag, execBurstOpen, execBurstNext,
      execBurstClose] at h
    refine runDriver_ended h fun d u hd hb hu => ?_
    simp only [Exec.bind_ok_iff, Exec.pure_eq] at hu
    obtain ⟨w, hw, x, hx, hu⟩ := hu; cases hu
    exact ((sbRead_busOnly hw).trans (sbRead_busOnly hx)).ran0 _ mem_allCaps (fun _ => rfl) (by simp) (by simp)
  case resetCpld =>
    simp only [exec, execRelease, execWriteReg, execReadReg, execSetBit, execClearBit, execGetBit, execSensorRd, execSensorWr,
      execGetChipIdHigh, execGetChipIdLow, execGetChipId, execResetCpld, execInitCam, execSetFormat, execSetJpegSize,
      execStartCapture, execCaptureComplete, execReadFifoLength, execFlushFifo, execClearFifoFlag, execBurstOpen, execBurstNext,
      execBurstClose] at h
    refine runDriver_ended h fun d u hd hb hu => ?_
    simp only [Exec.bind_ok_iff, Exec.pure_eq] at hu
    obtain ⟨w, hw, x, hx, y, hy, z, hz, hu⟩ := hu; cases hu
    have k := (((writeReg_busOnly hw).trans (delay_busOnly hx)).trans (writeReg_busOnly hy)).trans (delay_busOnly hz)
    have e := k.err
    simp at e
    constructor
    · simp; exact k.driver
    · simp [capAfter, e]; exact fun _ => k.sPrecond
    · exact fun hh => absurd (mem_allCaps _) hh
    · simp [e, refusalCodes]
    · exact k.sRefused
    · exact .inl k.sSbaddr
    · exact .inl k.sRawmgd
    · exact k.cfg
    · exact k.inputs
    · exact k.responses
    · exact k.trace
  case initCam =>
    simp only [exec, execRelease, execWriteReg, execReadReg, execSetBit, execClearBit, execGetBit, execSensorRd, execSensorWr,
      execGetChipIdHigh, execGetChipIdLow, execGetChipId, execResetCpld, execInitCam, execSetFormat, execSetJpegSize,
      execStartCapture, execCaptureComplete, execReadFifoLength, execFlushFifo, execClearFifoFlag, execBurstOpen, execBurstNext,
      execBurstClose] at h
    refine runDriver_ended h fun d u hd hb hu => ?_
    simp only [Exec.bind_ok_iff, Exec.pure_eq] at hu
    obtain ⟨w, hw, hu⟩ := hu; cases hu
    exact (runSeq_busOnly _ hw).ranCap (mv := true) (c := .configured) 0#32 rfl (by simp) (by simp [capAfter]) (by simp) (by simp)
  case setFormat =>
    simp only [exec, execRelease, execWriteReg, execReadReg, execSetBit, execClearBit, execGetBit, execSensorRd, execSensorWr,
      execGetChipIdHigh, execGetChipIdLow, execGetChipId, execResetCpld, execInitCam, execSetFormat, execSetJpegSize,
      execStartCapture, execCaptureComplete, execReadFifoLength, execFlushFifo, execClearFifoFlag, execBurstOpen, execBurstNext,
      execBurstClose] at h
    refine runDriver_ended h fun d u hd hb hu => ?_
    simp only [Exec.bind_ok_iff, Exec.pure_eq] at hu
    obtain ⟨w, hw, hu⟩ := hu; cases hu
    exact (runSeq_busOnly _ hw).ranCap (mv := false) (c := .configured) _ rfl (by simp; rfl) (by simp [capAfter]) (by simp) (by simp)
  case setJpegSize =>
    simp only [exec, execRelease, execWriteReg, execReadReg, execSetBit, execClearBit, execGetBit, execSensorRd, execSensorWr,
      execGetChipIdHigh, execGetChipIdLow, execGetChipId, execResetCpld, execInitCam, execSetFormat, execSetJpegSize,
      execStartCapture, execCaptureComplete, execReadFifoLength, execFlushFifo, execClearFifoFlag, execBurstOpen, execBurstNext,
      execBurstClose] at h
    refine runDriver_ended h fun d u hd hb hu => ?_
    simp only [Exec.bind_ok_iff, Exec.pure_eq] at hu
    obtain ⟨w, hw, hu⟩ := hu; cases hu
    exact (runSeq_busOnly _ hw).ranCap (mv := false) (c := .configured) _ rfl (by simp; rfl) (by simp [capAfter]) (by simp) (by simp)
  case startCapture =>
    simp only [exec, execRelease, execWriteReg, execReadReg, execSetBit, execClearBit, execGetBit, execSensorRd, execSensorWr,
      execGetChipIdHigh, execGetChipIdLow, execGetChipId, execResetCpld, execInitCam, execSetFormat, execSetJpegSize,
      execStartCapture, execCaptureComplete, execReadFifoLength, execFlushFifo, execClearFifoFlag, execBurstOpen, execBurstNext,
      execBurstClose] at h
    refine runDriver_ended h fun d u hd hb hu => ?_
    simp only [Exec.bind_ok_iff, Exec.pure_eq] at hu
    obtain ⟨w, hw, hu⟩ := hu; cases hu
    exact (writeReg_busOnly hw).ranCap (mv := true) (c := .capturing) 0#32 rfl (by simp) (by simp [capAfter]) (by simp) (by simp)
  case captureComplete =>
    simp only [exec, execRelease, execWriteReg, execReadReg, execSetBit, execClearBit, execGetBit, execSensorRd, execSensorWr,
      execGetChipIdHigh, execGetChipIdLow, execGetChipId, execResetCpld, execInitCam, execSetFormat, execSetJpegSize,
      execStartCapture, execCaptureComplete, execReadFifoLength, execFlushFifo, execClearFifoFlag, execBurstOpen, execBurstNext,
      execBurstClose] at h
    refine runDriver_ended h fun d u hd hb hu => ?_
    simp only [Exec.bind_ok_iff, Exec.pure_eq] at hu
    obtain ⟨w, hw, hu⟩ := hu; cases hu
    exact (readReg_busOnly hw).ranCap (mv := anyBit w.1 (begin Instr.captureComplete s).cfg.M_CAP_DONE) (c := .frameReady) (boolWord (anyBit w.1 (begin Instr.captureComplete s).cfg.M_CAP_DONE)) rfl (by
       rw [show w.2.cfg = (begin Instr.captureComplete s).cfg from (readReg_busOnly hw).cfg.trans (by unfold check; split <;> rfl)]) (by intro _; simp [capAfter, boolWord]; by_cases hx : anyBit w.1 s.cfg.M_CAP_DONE = true <;> simp [hx]) (by simp) (by simp)
  case readFifoLength =>
    simp only [exec, execRelease, execWriteReg, execReadReg, execSetBit, execClearBit, execGetBit, execSensorRd, execSensorWr,
      execGetChipIdHigh, execGetChipIdLow, execGetChipId, execResetCpld, execInitCam, execSetFormat, execSetJpegSize,
      execStartCapture, execCaptureComplete, execReadFifoLength, execFlushFifo, execClearFifoFlag, execBurstOpen, execBurstNext,
      execBurstClose] at h
    refine runDriver_ended h fun d u hd hb hu => ?_
    simp only [Exec.bind_ok_iff, Exec.pure_eq] at hu
    obtain ⟨w, hw, x, hx, y, hy, hu⟩ := hu; cases hu
    exact (((readReg_busOnly hw).trans (readReg_busOnly hx)).trans (readReg_busOnly hy)).ranCap (mv := false) (c := .configured) _ rfl (by simp; rfl) (by simp [capAfter]) (by simp) (by simp)
  case flushFifo =>
    simp only [exec, execRelease, execWriteReg, execReadReg, execSetBit, execClearBit, execGetBit, execSensorRd, execSensorWr,
      execGetChipIdHigh, execGetChipIdLow, execGetChipId, execResetCpld, execInitCam, execSetFormat, execSetJpegSize,
      execStartCapture, execCaptureComplete, execReadFifoLength, execFlushFifo, execClearFifoFlag, execBurstOpen, execBurstNext,
      execBurstClose] at h
    refine runDriver_ended h fun d u hd hb hu => ?_
    simp only [Exec.bind_ok_iff, Exec.pure_eq] at hu
    obtain ⟨w, hw, hu⟩ := hu; cases hu
    exact (writeReg_busOnly hw).ranCap (mv := true) (c := .configured) 0#32 rfl (by simp) (by simp [capAfter]) (by simp) (by simp)
  case clearFifoFlag =>
    simp only [exec, execRelease, execWriteReg, execReadReg, execSetBit, execClearBit, execGetBit, execSensorRd, execSensorWr,
      execGetChipIdHigh, execGetChipIdLow, execGetChipId, execResetCpld, execInitCam, execSetFormat, execSetJpegSize,
      execStartCapture, execCaptureComplete, execReadFifoLength, execFlushFifo, execClearFifoFlag, execBurstOpen, execBurstNext,
      execBurstClose] at h
    refine runDriver_ended h fun d u hd hb hu => ?_
    simp only [Exec.bind_ok_iff, Exec.pure_eq] at hu
    obtain ⟨w, hw, hu⟩ := hu; cases hu
    exact (writeReg_busOnly hw).ranCap (mv := true) (c := .configured) 0#32 rfl (by simp) (by simp [capAfter]) (by simp) (by simp)
  case burstOpen =>
    simp only [exec, execRelease, execWriteReg, execReadReg, execSetBit, execClearBit, execGetBit, execSensorRd, execSensorWr,
      execGetChipIdHigh, execGetChipIdLow, execGetChipId, execResetCpld, execInitCam, execSetFormat, execSetJpegSize,
      execStartCapture, execCaptureComplete, execReadFifoLength, execFlushFifo, execClearFifoFlag, execBurstOpen, execBurstNext,
      execBurstClose] at h
    refine runDriver_ended h fun d u hd hb hu => ?_
    simp only [Exec.bind_ok_iff, Exec.pure_eq] at hu
    obtain ⟨w, hw, x, hx, hu⟩ := hu; cases hu
    have k := ((csLow_busOnly hw).trans (xfer_busOnly hx)).ranCap (i := .burstOpen) (mv := false) (c := .configured) 0#32 rfl rfl (by simp [capAfter]) (by simp) (by simp)
    simp at k
    exact ⟨k.driver, k.cap, k.cap', k.err, k.sRefused, k.sSbaddr, k.sRawmgd, k.cfg, k.inputs, k.responses, k.trace⟩
  case burstNext =>
    simp only [exec, execRelease, execWriteReg, execReadReg, execSetBit, execClearBit, execGetBit, execSensorRd, execSensorWr,
      execGetChipIdHigh, execGetChipIdLow, execGetChipId, execResetCpld, execInitCam, execSetFormat, execSetJpegSize,
      execStartCapture, execCaptureComplete, execReadFifoLength, execFlushFifo, execClearFifoFlag, execBurstOpen, execBurstNext,
      execBurstClose] at h
    refine runDriver_ended h fun d u hd hb hu => ?_
    simp only [Exec.bind_ok_iff, Exec.pure_eq] at hu
    obtain ⟨w, hw, hu⟩ := hu; cases hu
    exact (xfer_busOnly hw).ran0 _ mem_allCaps (fun _ => rfl) (by simp) (by simp)
  case burstClose =>
    simp only [exec, execRelease, execWriteReg, execReadReg, execSetBit, execClearBit, execGetBit, execSensorRd, execSensorWr,
      execGetChipIdHigh, execGetChipIdLow, execGetChipId, execResetCpld, execInitCam, execSetFormat, execSetJpegSize,
      execStartCapture, execCaptureComplete, execReadFifoLength, execFlushFifo, execClearFifoFlag, execBurstOpen, execBurstNext,
      execBurstClose] at h
    refine runDriver_ended h fun d u hd hb hu => ?_
    simp only [Exec.bind_ok_iff, Exec.pure_eq] at hu
    obtain ⟨w, hw, hu⟩ := hu; cases hu
    have k := (csHigh_busOnly hw).ran0 (i := .burstClose) 0#32 mem_allCaps (fun _ => rfl) (by simp) (by simp)
    exact ⟨k.driver, k.cap, k.cap', k.err, k.sRefused, k.sSbaddr, k.sRawmgd, k.cfg, k.inputs, k.responses, k.trace⟩

/-- The inversion of `step`: the block holds, is reset, or takes a word, which runs or is refused. -/
theorem step_cases {s t : State} (h : step s = .next t) :
   t = s ∨ (∃ rest, s.inputs = .reset :: rest ∧ t = blockReset { s with inputs := rest }) ∨
   (∃ w rest, s.phase = .idle ∧ s.inputs = .command w :: rest ∧ ((∃ i, exec i { s with inputs := rest } = .next t) ∨ t = refuse .illegal { s with inputs := rest })) := by
  unfold step at h
  split at h
  · left; simpa using h.symm
  · rename_i rest hin
    right; left; exact ⟨rest, hin, by simpa using h.symm⟩
  · rename_i w rest hin
    split at h
    · rename_i hr
      right; right; refine ⟨w, rest, by simpa [State.cmdReady] using hr, hin, ?_⟩
      unfold takeWord at h
      split at h
      · left; exact ⟨_, h⟩
      · right; simpa [refused] using h.symm
    · simp at h

end Sys2Proof.Machine
end

