-- ==== Sys2Proof/Laws/Closed.lean ====
section
/-! SUPPORT. What holds between the peripheral before and after a command because every act of the block on the bus keeps it. -/

namespace Sys2Proof.Machine

/-- A relation of peripherals that every act of the block on the bus keeps. -/
structure Closed (P : Params) (R : Peripheral → Peripheral → Prop) : Prop where
  refl : ∀ p, R p p
  trans : ∀ p q r, R p q → R q r → R p r
  csLow : ∀ p, R p p.csLow
  csHigh : ∀ p, R p p.csHigh
  xfer : ∀ p o, R p (p.xfer P o).2
  sbRead : ∀ p a, R p (p.sbRead a).2
  sbWrite : ∀ p a v, R p (p.sbWrite a v)

section
variable {R : Peripheral → Peripheral → Prop}
theorem Closed.reg {P} (c : Closed P R) (o1 o2 p) : R p (Peripheral.hears P o1 o2 p).after :=
  c.trans _ _ _ (c.csLow p) (c.trans _ _ _ (c.xfer _ o1) (c.trans _ _ _ (c.xfer _ o2) (c.csHigh _)))
theorem Closed.writeReg {s t a v} (c : Closed s.cfg R) (h : writeReg a v s = .ok t) : R s.periph t.periph := by
  obtain ⟨hb, ht⟩ := writeReg_next h
  rw [writeReg_ok a v hb ht] at h; cases h; exact c.reg _ _ _
theorem Closed.readReg {s a r} (c : Closed s.cfg R) (h : readReg a s = .ok r) : R s.periph r.2.periph := by
  obtain ⟨hb, ht⟩ := readReg_next h
  rw [readReg_ok a hb ht] at h; cases h; exact c.reg _ _ _
theorem Closed.modifyReg {s t a f} (c : Closed s.cfg R) (h : modifyReg a f s = .ok t) : R s.periph t.periph := by
  unfold Machine.modifyReg at h
  rw [Exec.bind_ok_iff] at h
  obtain ⟨r, hr, h⟩ := h
  have k := (readReg_busOnly hr).cfg
  exact c.trans _ _ _ (c.readReg hr) (Closed.writeReg (s := { r.2 with tmp := r.1 }) (by rw [show State.cfg _ = s.cfg from k]; exact c) h)
theorem Closed.sbRead' {s a r} (c : Closed s.cfg R) (h : Machine.sbRead a s = .ok r) : R s.periph r.2.periph := by
  unfold Machine.sbRead at h; split at h
  · simp at h
  · cases h; exact c.sbRead _ _
theorem Closed.sbWrite' {s a v t} (c : Closed s.cfg R) (h : Machine.sbWrite a v s = .ok t) : R s.periph t.periph := by
  unfold Machine.sbWrite at h; split at h
  · simp at h
  · cases h; exact c.sbWrite _ _ _
theorem Closed.delay' {s a t} (c : Closed s.cfg R) (h : Machine.delay a s = .ok t) : R s.periph t.periph := by
  unfold Machine.delay at h; split at h
  · simp at h
  · cases h; exact c.refl _
theorem Closed.csLow' {s t} (c : Closed s.cfg R) (h : Machine.csLow s = .ok t) : R s.periph t.periph := by
  obtain ⟨-, -, rfl⟩ := csLow_next h; exact c.csLow _
theorem Closed.csHigh' {s t} (c : Closed s.cfg R) (h : Machine.csHigh s = .ok t) : R s.periph t.periph := by
  obtain ⟨-, rfl⟩ := csHigh_next h; exact c.csHigh _
theorem Closed.xfer' {s o r} (c : Closed s.cfg R) (h : Machine.xfer o s = .ok r) : R s.periph r.2.periph := by
  obtain ⟨-, -, h2⟩ := xfer_next h; rw [h2]; exact c.xfer _ _
theorem Closed.runSeq (seq) : ∀ {s t}, Closed s.cfg R → Machine.runSeq seq s = .ok t → R s.periph t.periph := by
  induction seq with
  | nil => intro s t c h; cases h; exact c.refl _
  | cons v seq ih =>
    intro s t c h
    simp only [Machine.runSeq] at h
    cases hv : runStep v s with
    | error f => rw [hv] at h; simp at h
    | ok u =>
      rw [hv] at h; simp only at h
      have k := (runStep_busOnly hv).cfg
      refine c.trans _ _ _ ?_ (ih (s := u) (by rw [k]; exact c) h)
      cases v <;> simp only [runStep] at hv
      · exact c.sbWrite' hv
      · exact c.writeReg hv
      · exact c.modifyReg hv
      · exact c.modifyReg hv
      · exact c.delay' hv
theorem check_cfg (l s) : (check l s).cfg = s.cfg := by unfold check; split <;> rfl
theorem check_periph (l s) : (check l s).periph = s.periph := by unfold check; split <;> rfl
theorem flagManaged_cfg (l s) : (flagManaged l s).cfg = s.cfg := by unfold flagManaged; split <;> rfl
theorem flagManaged_periph (l s) : (flagManaged l s).periph = s.periph := by unfold flagManaged; split <;> rfl
theorem flagAddr_cfg (d l s) : (flagAddr d l s).cfg = s.cfg := by unfold flagAddr; split <;> rfl
theorem flagAddr_periph (d l s) : (flagAddr d l s).periph = s.periph := by unfold flagAddr; split <;> rfl

theorem runDriver_periph {i : Instr} {s t : State} {body} (h : runDriver i s body = .next t) :
   t.periph = s.periph ∨ ∃ d u, s.driver = some d ∧ body d (begin i s) = .ok u ∧ t = finish u := by
  rcases runDriver_cases i s body with ⟨-, hr⟩ | ⟨d, hd, he, hr⟩ | ⟨d, hd, he, hbu, hr⟩ | ⟨d, hd, he, hbu, hr⟩ <;> rw [hr] at h
  · cases h; exact .inl rfl
  · cases h; exact .inl rfl
  · cases h; exact .inl rfl
  · obtain ⟨u, hu, rfl⟩ := complete_next h
    exact .inr ⟨d, u, hd, hu, rfl⟩

/-- So a command keeps it. -/
theorem exec_closed {i : Instr} {s t : State} (c : Closed s.cfg R) (h : exec i s = .next t) : R s.periph t.periph := by
  have c0 : ∀ i, Closed (begin i s).cfg R := fun _ => c
  cases i <;> simp only [exec, execStatus, execSetdly, execBind, runAlways, runBind, execRelease,execWriteReg,execReadReg,execSetBit,execClearBit,execGetBit,execSensorRd,execSensorWr,execGetChipIdHigh,execGetChipIdLow,execGetChipId,execResetCpld,execInitCam,execSetFormat,execSetJpegSize,execStartCapture,execCaptureComplete,execReadFifoLength,execFlushFifo,execClearFifoFlag,execBurstOpen,execBurstNext,execBurstClose] at h
  case bind =>
    split at h
    · split at h
      · cases h; exact c.refl _
      · cases h; exact c.refl _
    · cases h; exact c.refl _
  case status => cases h; exact c.refl _
  case setdly => cases h; exact c.refl _
  all_goals (rcases runDriver_periph h with h | ⟨d, u, -, hu, rfl⟩; (rw [h]; exact c.refl _); simp only [Exec.bind_ok_iff, Exec.pure_eq, finish_periph] at hu ⊢)
  case release => cases hu; exact c.refl _
  case writeReg => 
    obtain ⟨w, hw, hu⟩ := hu; cases hu
    have := Closed.writeReg (R := R) (by rw [flagManaged_cfg]; exact c) hw; rwa [flagManaged_periph] at this
  case readReg => obtain ⟨w, hw, hu⟩ := hu; cases hu; have := Closed.readReg (c0 _) hw; exact this
  case setBit => 
    obtain ⟨w, hw, hu⟩ := hu; cases hu
    have := Closed.modifyReg (R := R) (by rw [flagManaged_cfg]; exact c) hw; rwa [flagManaged_periph] at this
  case clearBit => 
    obtain ⟨w, hw, hu⟩ := hu; cases hu
    have := Closed.modifyReg (R := R) (by rw [flagManaged_cfg]; exact c) hw; rwa [flagManaged_periph] at this
  case getBit => obtain ⟨w, hw, hu⟩ := hu; cases hu; have := Closed.readReg (c0 _) hw; exact this
  case sensorRd =>
    obtain ⟨w, hw, hu⟩ := hu; cases hu
    have := Closed.sbRead' (R := R) (by rw [flagAddr_cfg]; exact c) hw; rwa [flagAddr_periph] at this
  case sensorWr =>
    obtain ⟨w, hw, hu⟩ := hu; cases hu
    have := Closed.sbWrite' (R := R) (by rw [flagAddr_cfg, check_cfg]; exact c) hw; rwa [flagAddr_periph, check_periph] at this
  case getChipIdHigh => obtain ⟨w, hw, hu⟩ := hu; cases hu; have := Closed.sbRead' (c0 _) hw; exact this
  case getChipIdLow => obtain ⟨w, hw, hu⟩ := hu; cases hu; have := Closed.sbRead' (c0 _) hw; exact this
  case getChipId =>
    obtain ⟨w, hw, x, hx, hu⟩ := hu; cases hu
    have k := (sbRead_busOnly hw).cfg
    have h1 := Closed.sbRead' (c0 _) hw; have h2 := Closed.sbRead' (R := R) (by rw [k]; exact c) hx
    exact c.trans _ _ _ h1 h2
  case resetCpld =>
    obtain ⟨w, hw, x, hx, y, hy, z, hz, hu⟩ := hu; cases hu
    have k1 := (writeReg_busOnly hw).cfg
    have k2 := (delay_busOnly hx).cfg
    have k3 := (writeReg_busOnly hy).cfg
    have e1 : w.cfg = s.cfg := k1
    have e2 : x.cfg = s.cfg := k2.trans e1
    have e3 : y.cfg = s.cfg := k3.trans e2
    have h1 := Closed.writeReg (c0 _) hw; have h2 := Closed.delay' (R := R) (by rw [e1]; exact c) hx
    have h3 := Closed.writeReg (R := R) (by rw [e2]; exact c) hy; have h4 := Closed.delay' (R := R) (by rw [e3]; exact c) hz
    exact c.trans _ _ _ h1 (c.trans _ _ _ h2 (c.trans _ _ _ h3 h4))
  case initCam =>
    obtain ⟨w, hw, hu⟩ := hu; cases hu
    have := Closed.runSeq (R := R) _ (by rw [check_cfg]; exact c) hw; rw [check_periph] at this; simp only [moveCap_periph]; exact this
  case setFormat =>
    obtain ⟨w, hw, hu⟩ := hu; cases hu
    have := Closed.runSeq (R := R) _ (by rw [check_cfg]; exact c) hw; rw [check_periph] at this; exact this
  case setJpegSize =>
    obtain ⟨w, hw, hu⟩ := hu; cases hu
    have := Closed.runSeq (R := R) _ (by rw [check_cfg]; exact c) hw; rw [check_periph] at this; exact this
  case startCapture =>
    obtain ⟨w, hw, hu⟩ := hu; cases hu
    have := Closed.writeReg (R := R) (by rw [check_cfg]; exact c) hw; rw [check_periph] at this; simp only [moveCap_periph]; exact this
  case flushFifo =>
    obtain ⟨w, hw, hu⟩ := hu; cases hu
    have := Closed.writeReg (R := R) (by rw [check_cfg]; exact c) hw; rw [check_periph] at this; simp only [moveCap_periph]; exact this
  case clearFifoFlag =>
    obtain ⟨w, hw, hu⟩ := hu; cases hu
    have := Closed.writeReg (R := R) (by rw [check_cfg]; exact c) hw; rw [check_periph] at this; simp only [moveCap_periph]; exact this
  case captureComplete =>
    obtain ⟨w, hw, hu⟩ := hu; cases hu
    have := Closed.readReg (R := R) (by rw [check_cfg]; exact c) hw; rw [check_periph] at this; simp only [moveCap_periph]; exact this
  case readFifoLength =>
    obtain ⟨w, hw, x, hx, y, hy, hu⟩ := hu; cases hu
    have k1 := (readReg_busOnly hw).cfg; rw [check_cfg] at k1
    have k2 := (readReg_busOnly hx).cfg
    have e1 : w.2.cfg = s.cfg := k1
    have e2 : x.2.cfg = s.cfg := k2.trans e1
    have h1 := Closed.readReg (R := R) (by rw [check_cfg]; exact c) hw; rw [check_periph] at h1
    exact c.trans _ _ _ h1 (c.trans _ _ _ (Closed.readReg (R := R) (by rw [e1]; exact c) hx) (Closed.readReg (R := R) (by rw [e2]; exact c) hy))
  case burstOpen =>
    obtain ⟨w, hw, x, hx, hu⟩ := hu; cases hu
    have k1 := (csLow_busOnly hw).cfg; rw [check_cfg] at k1
    have e1 : w.cfg = s.cfg := k1
    have h1 := Closed.csLow' (R := R) (by rw [check_cfg]; exact c) hw; rw [check_periph] at h1
    exact c.trans _ _ _ h1 (Closed.xfer' (R := R) (by rw [e1]; exact c) hx)
  case burstNext => obtain ⟨w, hw, hu⟩ := hu; cases hu; have := Closed.xfer' (c0 _) hw; exact this
  case burstClose => obtain ⟨w, hw, hu⟩ := hu; cases hu; have := Closed.csHigh' (c0 _) hw; exact this
end

end Sys2Proof.Machine
end

