-- ==== Sys2Proof/Laws/Memory.lean ====
section
/-! SUPPORT. Reading and writing a `Memory`: a read after a write, and that every write keeps the canonical form. -/

namespace Sys2Proof.Machine

@[simp] theorem Memory.read_nil (a : Nat) : Memory.read [] a = Memory.unlisted := rfl

theorem Memory.read_cons (c : Host.Cell) (m : Memory) (a : Nat) :
    Memory.read (c :: m) a = if c.1 = a then c.2 else Memory.read m a := rfl

/-- An address below every listed one reads as unlisted. -/
theorem Memory.read_of_lt (m : Memory) (a : Nat) (h : ∀ c ∈ m, a < c.1) : m.read a = Memory.unlisted := by
  induction m with
  | nil => rfl
  | cons c m ih =>
    have hc := h c (by simp)
    rw [Memory.read_cons, if_neg (by omega)]
    exact ih fun d hd => h d (by simp [hd])

theorem Memory.read_entry (m : Memory) (a b : Nat) (v : Byte) (h : ∀ c ∈ m, a < c.1) :
    (Memory.entry a v m).read b = if b = a then v else m.read b := by
  unfold Memory.entry
  split
  next hv =>
    split
    next hb => rw [hb, Memory.read_of_lt m a h, hv]
    next => rfl
  next => rw [Memory.read_cons]; by_cases hb : a = b <;> simp [hb, eq_comm]

theorem Memory.wf_entry (m : Memory) (a : Nat) (v : Byte) (hm : m.wf) (h : ∀ c ∈ m, a < c.1) :
    (Memory.entry a v m).wf := by
  unfold Memory.entry
  split
  next => exact hm
  next hv =>
    refine ⟨List.pairwise_cons.2 ⟨h, hm.1⟩, ?_⟩
    intro c hc
    rcases List.mem_cons.1 hc with rfl | hc
    · exact hv
    · exact hm.2 c hc

theorem Memory.wf_tail {c : Host.Cell} {m : Memory} (h : Memory.wf (c :: m)) : m.wf :=
  ⟨(List.pairwise_cons.1 h.1).2, fun d hd => h.2 d (by simp [hd])⟩

theorem Memory.head_lt {c : Host.Cell} {m : Memory} (h : Memory.wf (c :: m)) : ∀ d ∈ m, c.1 < d.1 :=
  (List.pairwise_cons.1 h.1).1

/-- What an address reads as after one write. -/
theorem Memory.read_write (m : Memory) (a b : Nat) (v : Byte) (hm : m.wf) :
    (m.write a v).read b = if b = a then v else m.read b := by
  induction m with
  | nil => exact Memory.read_entry [] a b v (by simp)
  | cons c m ih =>
    have hlt := Memory.head_lt hm
    unfold Memory.write
    split
    next h =>
      apply Memory.read_entry
      intro d hd
      rcases List.mem_cons.1 hd with rfl | hd
      · exact h
      · have := hlt d hd; omega
    next h =>
      split
      next he =>
        rw [Memory.read_entry m a b v (by intro d hd; have := hlt d hd; omega), Memory.read_cons]
        by_cases hb : b = a
        · simp [hb]
        · simp [hb, show ¬ c.1 = b by omega]
      next he =>
        rw [Memory.read_cons, ih (Memory.wf_tail hm), Memory.read_cons]
        by_cases hc : c.1 = b
        · simp [hc, show ¬ b = a by omega]
        · simp [hc]

/-- The addresses of a written memory: those it had, and the one written. -/
theorem Memory.mem_write (m : Memory) (a : Nat) (v : Byte) (c : Host.Cell) (h : c ∈ m.write a v) : c.1 = a ∨ c ∈ m := by
  induction m with
  | nil =>
    unfold Memory.write Memory.entry at h
    split at h
    · simp at h
    · simp only [List.mem_singleton] at h; left; rw [h]
  | cons d m ih =>
    unfold Memory.write at h
    split at h
    · unfold Memory.entry at h
      split at h
      · exact .inr h
      · rcases List.mem_cons.1 h with rfl | h
        · exact .inl rfl
        · exact .inr h
    · split at h
      · unfold Memory.entry at h
        split at h
        · exact .inr (List.mem_cons_of_mem _ h)
        · rcases List.mem_cons.1 h with rfl | h
          · exact .inl rfl
          · exact .inr (List.mem_cons_of_mem _ h)
      · rcases List.mem_cons.1 h with rfl | h
        · exact .inr (by simp)
        · rcases ih h with h | h
          · exact .inl h
          · exact .inr (List.mem_cons_of_mem _ h)

/-- A write keeps the canonical form. -/
theorem Memory.wf_write (m : Memory) (a : Nat) (v : Byte) (hm : m.wf) : (m.write a v).wf := by
  induction m with
  | nil => exact Memory.wf_entry [] a v hm (by simp)
  | cons c m ih =>
    have hlt := Memory.head_lt hm
    have hw := ih (Memory.wf_tail hm)
    unfold Memory.write
    split
    next h =>
      apply Memory.wf_entry _ _ _ hm
      intro d hd
      rcases List.mem_cons.1 hd with rfl | hd
      · exact h
      · have := hlt d hd; omega
    next h =>
      split
      next he => exact Memory.wf_entry _ _ _ (Memory.wf_tail hm) (by intro d hd; have := hlt d hd; omega)
      next he =>
        refine ⟨List.pairwise_cons.2 ⟨?_, hw.1⟩, ?_⟩
        · intro d hd
          rcases Memory.mem_write m a v d hd with h' | h'
          · omega
          · exact hlt d h'
        · intro d hd
          rcases List.mem_cons.1 hd with rfl | hd
          · exact hm.2 d (by simp)
          · exact hw.2 d hd

end Sys2Proof.Machine
end

