-- ==== Sys2Proof/Laws/Double.lean ====
section
/-! SUPPORT. The test double in a register transaction (20_memory.md R54 to R57). -/

namespace Sys2Proof.Machine

theorem Params.writeBit_ne_zero {P : Params} (h : P.oneWriteBit = true) : P.WRITE_BIT ≠ 0#8 := by
  simp [Params.oneWriteBit] at h; exact h.1

/-- A start write records the length of a legal frame as it is (R56). -/
theorem Double.len_startCapture {P : Params} (e : Double) (h : e.legalInput = true) :
    (e.startCapture P (addrR P P.A_CAPTURE_TRIG) P.V_CAPTURE_START).len.toNat = e.nextFrame.length := by
  have : e.nextFrame.length ≤ 2 ^ 24 - 1 := by simpa only [Double.legalInput, decide_eq_true_eq] using h
  simp only [Double.startCapture, and_self, if_true, BitVec.toNat_ofNat]
  omega

/-- A register write stores one byte in the double (R56). -/
theorem Double.write_hears {P : Params} (h : P.oneWriteBit = true) (e : Double) (a v : Byte) :
    ∃ f, ((Peripheral.double e).hears P (a ||| P.WRITE_BIT) v).after = .double f ∧ f.reg = e.reg.write (addrR P a).toNat v ∧ f.sreg = e.sreg := by
  have h1 : (a ||| P.WRITE_BIT) &&& P.WRITE_BIT = P.WRITE_BIT := addrW_and_writeBit P a
  have h2 : addrR P (a ||| P.WRITE_BIT) = addrR P a := addrR_addrW P a
  simp only [Peripheral.hears, Peripheral.csLow, Peripheral.xfer, Double.xfer, Double.takeCommand, h1, Params.writeBit_ne_zero h, h2, ne_eq, not_false_eq_true, if_true, Peripheral.csHigh]
  refine ⟨_, rfl, ?_⟩
  simp only [Double.store, Double.startCapture, Double.flush, Double.clearFlag]
  split <;> split <;> split <;> exact ⟨rfl, rfl⟩

/-- A register read stores nothing (R57), also where the address byte is `BURST_CMD`. -/
theorem Double.read_hears {P : Params} (e : Double) (a o : Byte) (ha : a &&& P.WRITE_BIT = 0#8) :
    ∃ f, ((Peripheral.double e).hears P a o).after = .double f ∧ f.reg = e.reg ∧ f.sreg = e.sreg := by
  by_cases hb : a = P.BURST_CMD
  · simp only [Peripheral.hears, Peripheral.csLow, Peripheral.xfer, Double.xfer, Double.takeCommand, ha, ne_eq, not_true, if_false, Peripheral.csHigh]
    rw [if_pos hb]
    exact ⟨_, rfl, rfl, rfl⟩
  · simp only [Peripheral.hears, Peripheral.csLow, Peripheral.xfer, Double.xfer, Double.takeCommand, ha, ne_eq, not_true, if_false, hb, Peripheral.csHigh]
    refine ⟨_, rfl, ?_⟩
    simp only [Double.load, Double.poll]
    split
    · exact ⟨rfl, rfl⟩
    split
    · exact ⟨rfl, rfl⟩
    split
    · exact ⟨rfl, rfl⟩
    split
    · dsimp only; split
      · exact ⟨rfl, rfl⟩
      · split <;> exact ⟨rfl, rfl⟩
    · exact ⟨rfl, rfl⟩

/-- A register read of a plain register answers what the register holds (R57). -/
theorem Double.read_plain {P : Params} (e : Double) (a o : Byte) (ha : plainRegister P a = true) :
    ((Peripheral.double e).hears P (a &&& ~~~P.WRITE_BIT) o).second = e.reg.read (addrR P a).toNat := by
  have h0 : (a &&& ~~~P.WRITE_BIT) &&& P.WRITE_BIT = 0#8 := addrR_and_writeBit P a
  simp [plainRegister] at ha
  obtain ⟨⟨⟨⟨h1, h2⟩, h3⟩, h4⟩, h5⟩ := ha
  have e1 : (a &&& ~~~P.WRITE_BIT) = addrR P a := rfl
  rw [e1] at h0 ⊢
  simp only [Peripheral.hears, Peripheral.csLow, Peripheral.xfer, Double.xfer, Double.takeCommand, h0, ne_eq, not_true, if_false, h5, Double.load, h4]
  simp [h1, h2, h3]

/-- A transfer keeps the memories canonical. -/
theorem Double.wf_xfer (P o) (d : Double) (h : d.reg.wf ∧ d.sreg.wf) : (d.xfer P o).2.reg.wf ∧ (d.xfer P o).2.sreg.wf := by
  unfold Double.xfer
  split
  · exact h
  · unfold Double.takeCommand; split; exact h; split <;> exact h
  · rename_i i _
    have hw := Memory.wf_write d.reg i.toNat o h.1
    unfold Double.store Double.startCapture Double.flush Double.clearFlag
    dsimp only
    split <;> split <;> split <;> exact ⟨hw, h.2⟩
  · unfold Double.load Double.poll; split; exact h; split; exact h; split; exact h; split
    · dsimp only; split; exact h; split <;> exact h
    · exact h
  · exact h
  · exact h

end Sys2Proof.Machine
end

