-- ==== Sys2Proof/Laws/PerInstr.lean ====
section
/-! SUPPORT. One statement about every command as syntax, one lemma per constructor. -/

namespace Sys2Proof.Laws.EncodingRow

/-- The command's row stands in the opcode map (R73), its encoding matches that row under the row's mask (R71, R74), and no other
row of the map accepts it. -/
def Statement (i : Instr) : Prop :=
  i.row ∈ opcodeMap ∧ encode i &&& i.row.format.mask = i.row.pattern ∧
    ∀ r ∈ opcodeMap, encode i &&& r.format.mask = r.pattern → r.op = i.row.op

/-- A word matches a row only if its opcode field is the row's opcode. -/
theorem op_of_match (w : Word) (r : OpcodeRow) (h : w &&& r.format.mask = r.pattern) : r.op = fieldOp w := by
  have k := congrArg fieldOp h
  simpa [Format.mask_eq, OpcodeRow.pattern] using k.symm

theorem fieldOp_encode (i : Instr) : fieldOp (encode i) = i.row.op := by
  cases i <;> simp [encode, Instr.row]

theorem of_row (i : Instr) : Statement i :=
  ⟨(encode_matches_row i).1, (encode_matches_row i).2, fun r _ h => (op_of_match _ r h).trans (fieldOp_encode i)⟩

theorem bind (pin model : Byte) : Statement (.bind pin model) := of_row _
theorem release : Statement .release := of_row _
theorem status : Statement .status := of_row _
theorem setdly (ms : Half) : Statement (.setdly ms) := of_row _
theorem writeReg (addr value : Byte) : Statement (.writeReg addr value) := of_row _
theorem readReg (addr : Byte) : Statement (.readReg addr) := of_row _
theorem setBit (addr mask : Byte) : Statement (.setBit addr mask) := of_row _
theorem clearBit (addr mask : Byte) : Statement (.clearBit addr mask) := of_row _
theorem getBit (addr mask : Byte) : Statement (.getBit addr mask) := of_row _
theorem sensorRd (addr : Half) : Statement (.sensorRd addr) := of_row _
theorem sensorWr (addr : Half) (value : Byte) : Statement (.sensorWr addr value) := of_row _
theorem getChipIdHigh : Statement .getChipIdHigh := of_row _
theorem getChipIdLow : Statement .getChipIdLow := of_row _
theorem getChipId : Statement .getChipId := of_row _
theorem resetCpld : Statement .resetCpld := of_row _
theorem initCam : Statement .initCam := of_row _
theorem setFormat (fmt : Byte) : Statement (.setFormat fmt) := of_row _
theorem setJpegSize (size : Byte) : Statement (.setJpegSize size) := of_row _
theorem startCapture : Statement .startCapture := of_row _
theorem captureComplete : Statement .captureComplete := of_row _
theorem readFifoLength : Statement .readFifoLength := of_row _
theorem flushFifo : Statement .flushFifo := of_row _
theorem clearFifoFlag : Statement .clearFifoFlag := of_row _
theorem burstOpen : Statement .burstOpen := of_row _
theorem burstNext : Statement .burstNext := of_row _
theorem burstClose : Statement .burstClose := of_row _

end Sys2Proof.Laws.EncodingRow
end

