-- ==== Sys2Proof/Laws/Retagged.lean ====
section
/-! SUPPORT. Two states that differ in CAP, ERR and S_PRECOND alone stay so through every operation a command is made of, with the
same events and the same peripheral. -/

namespace Sys2Proof.Machine

/-- Two states that differ in CAP, ERR and S_PRECOND alone. -/
def Retagged (s t : State) : Prop := ∃ c e p, t = s.retag c e p

theorem Retagged.obs {s t} (h : Retagged s t) : t.trace = s.trace ∧ t.periph = s.periph := by
  obtain ⟨c, e, p, rfl⟩ := h; exact ⟨rfl, rfl⟩

theorem Retagged.begin {i s c} : Retagged (Machine.begin i s) (Machine.begin i { s with cap := c }) := ⟨c, .ok, s.sPrecond, rfl⟩
theorem Retagged.check {l s t} (h : Retagged s t) : Retagged (Machine.check l s) (Machine.check l t) := by
  obtain ⟨c, e, p, rfl⟩ := h
  unfold Machine.check
  split <;> split <;> exact ⟨c, _, _, rfl⟩
theorem Retagged.flagManaged {a s t} (h : Retagged s t) : Retagged (Machine.flagManaged a s) (Machine.flagManaged a t) := by
  obtain ⟨c, e, p, rfl⟩ := h
  unfold Machine.flagManaged
  have : (s.retag c e p).cfg = s.cfg := rfl
  rw [this]
  split <;> exact ⟨c, _, _, rfl⟩
theorem Retagged.flagAddr {d a s t} (h : Retagged s t) : Retagged (Machine.flagAddr d a s) (Machine.flagAddr d a t) := by
  obtain ⟨c, e, p, rfl⟩ := h
  unfold Machine.flagAddr
  have : (s.retag c e p).cfg = s.cfg := rfl
  rw [this]
  split <;> exact ⟨c, _, _, rfl⟩

theorem Retagged.op {f : State → Exec} (hf : ∀ c e p s, f (s.retag c e p) = Exec.retag c e p (f s)) {s t u} (h : Retagged s t) (hu : f s = .ok u) :
   ∃ v, f t = .ok v ∧ Retagged u v := by
  obtain ⟨c, e, p, rfl⟩ := h
  exact ⟨u.retag c e p, by rw [hf, hu]; rfl, c, e, p, rfl⟩
theorem Retagged.opr {f : State → Except Fault (Byte × State)} (hf : ∀ c e p s, f (s.retag c e p) = (f s).map fun r => (r.1, r.2.retag c e p)) {s t u} (h : Retagged s t) (hu : f s = .ok u) :
   ∃ v, f t = .ok v ∧ v.1 = u.1 ∧ Retagged u.2 v.2 := by
  obtain ⟨c, e, p, rfl⟩ := h
  exact ⟨(u.1, u.2.retag c e p), by rw [hf, hu]; rfl, rfl, c, e, p, rfl⟩

theorem Retagged.cfg {s t} (h : Retagged s t) : t.cfg = s.cfg := by obtain ⟨c, e, p, rfl⟩ := h; rfl
theorem Retagged.tResetMs {s t} (h : Retagged s t) : t.tResetMs = s.tResetMs := by obtain ⟨c, e, p, rfl⟩ := h; rfl

end Sys2Proof.Machine
end

