-- ==== Sys2Proof/Tests/Slice0.lean ====
section
/-! SUPPORT. Tests and witnesses. The words are those of 95_test_vectors.md 2.1, written out from the encodings of R71 to R73; the
expected events, responses and end states are those of 95_test_vectors.md parts 1 and 2 (section named at each test). The vendor
sequences and the sensor ranges of `testModel` are the illustrations of those vectors. -/

namespace Sys2Proof.Tests

open Sys2Proof Sys2Proof.Machine

/-! ### The states of the tests -/

/-- The model of the vectors: tag 3, with the illustrations of 95_test_vectors.md 2.5 and P5. -/
def testModel : ModelInfo where
  tag := 3#8
  A_CHIPID_HIGH := 0x300A#16
  A_CHIPID_LOW := 0x300B#16
  formats := [(0#8, []), (1#8, [.rc 0x03#8 0x02#8, .rw 0x01#8 0x00#8]), (2#8, [])]
  sizes := [(0#8, [.sw 0x1002#16 0x00#8, .rs 0x03#8 0x02#8]), (6#8, [])]
  INIT_SEQ := [.sw 0x3008#16 0x80#8, .dl 100#16, .sw 0x3103#16 0x93#8]
  sensorRanges := [(0x3000#16, 0x3FFF#16)]
  SENSOR_TRANSPORT := .i2cSide

/-- The default table with that model. -/
def table : Params := { Config.defaults with models := [testModel] }

/-- `BIND 10, 3`. -/
def driver10 : Driver := ⟨10#8, 3#8⟩

/-- After block reset, with the test table and a peripheral. -/
def unbound (p : Peripheral) : State := { State.reset with cfg := table, periph := p }
/-- Bound, with no reader, in a capture state. -/
def ready (c : CapState) (p : Peripheral) : State := { unbound p with driver := some driver10, cap := c }
/-- Bound, with a live reader. -/
def reading (p : Peripheral) : State := { ready .frameReady p with cs := false, txn := true, burst := true }
/-- A state with one word on the command port. -/
def given (w : Word) (s : State) : State := { s with inputs := [.command w] }
/-- A peripheral with nothing to say. -/
def silent : Peripheral := .oracle [] 0
/-- A peripheral that answers the given bytes. -/
def answers (bs : List Byte) : Peripheral := .oracle bs 0
/-- The double before a run, holding a frame. -/
def frameDouble : Double := { Double.initial [] [] 0 with fifo := [0xFF#8, 0xD8#8, 0xFF#8], len := 3#24 }

/-! ### What a test looks at -/

/-- The state a step leads to. -/
def after (r : Result) : Option State :=
  match r with
  | .next t => some t
  | .fault _ => none
  | .refused _ => none

/-- The events a command produced from a state with an empty trace. -/
def events (i : Instr) (s : State) : Option (List Event) := (after (exec i s)).map fun t => t.trace
/-- The response of a command. -/
def response (i : Instr) (s : State) : Option (BitVec 4 × Word) := (after (exec i s)).map fun t => (t.err.code, t.result)
/-- A field of the state after a command. -/
def field {α : Type} (f : State → α) (i : Instr) (s : State) : Option α := (after (exec i s)).map f

/-! ### WellFormed refuses what it should (R75 to R77) -/

theorem test_wf_bind_model_9 : (Instr.bind 10#8 9#8).wf table = false := by decide
theorem test_wf_set_format_3 : (Instr.setFormat 3#8).wf table = false := by decide
theorem test_wf_set_jpeg_size_7 : (Instr.setJpegSize 7#8).wf table = false := by decide
theorem test_wf_no_write_bit : Params.wf { table with WRITE_BIT := 0x00#8 } = false := by decide
theorem test_wf_two_write_bits : Params.wf { table with WRITE_BIT := 0x81#8 } = false := by decide
theorem test_wf_burst_cmd_is_a_write : Params.wf { table with BURST_CMD := 0xBC#8 } = false := by decide
theorem test_wf_defaults : table.wf = true ∧ (Instr.bind 255#8 3#8).wf table = true ∧ (Instr.setFormat 2#8).wf table = true := by
  decide

/-! ### Decoding: one written-out word for every command -/

theorem test_decode_bind : decode 0x0100FF03#32 = .ok (.bind 255#8 3#8) := by decide
theorem test_decode_release : decode 0x02000000#32 = .ok .release := by decide
theorem test_decode_status : decode 0x03000000#32 = .ok .status := by decide
theorem test_decode_setdly : decode 0x0400FFFF#32 = .ok (.setdly 65535#16) := by decide
theorem test_decode_write_reg : decode 0x10000055#32 = .ok (.writeReg 0x00#8 0x55#8) := by decide
theorem test_decode_read_reg : decode 0x11004100#32 = .ok (.readReg 0x41#8) := by decide
theorem test_decode_set_bit : decode 0x12000302#32 = .ok (.setBit 0x03#8 0x02#8) := by decide
theorem test_decode_clear_bit : decode 0x13000610#32 = .ok (.clearBit 0x06#8 0x10#8) := by decide
theorem test_decode_get_bit : decode 0x14004108#32 = .ok (.getBit 0x41#8 0x08#8) := by decide
theorem test_decode_sensor_rd : decode 0x20300A00#32 = .ok (.sensorRd 0x300A#16) := by decide
theorem test_decode_sensor_wr : decode 0x21300880#32 = .ok (.sensorWr 0x3008#16 0x80#8) := by decide
theorem test_decode_get_chip_id_high : decode 0x22000000#32 = .ok .getChipIdHigh := by decide
theorem test_decode_get_chip_id_low : decode 0x23000000#32 = .ok .getChipIdLow := by decide
theorem test_decode_get_chip_id : decode 0x24000000#32 = .ok .getChipId := by decide
theorem test_decode_reset_cpld : decode 0x30000000#32 = .ok .resetCpld := by decide
theorem test_decode_init_cam : decode 0x31000000#32 = .ok .initCam := by decide
theorem test_decode_set_format : decode 0x32000002#32 = .ok (.setFormat 2#8) := by decide
theorem test_decode_set_jpeg_size : decode 0x33000006#32 = .ok (.setJpegSize 6#8) := by decide
theorem test_decode_start_capture : decode 0x34000000#32 = .ok .startCapture := by decide
theorem test_decode_capture_complete : decode 0x35000000#32 = .ok .captureComplete := by decide
theorem test_decode_read_fifo_length : decode 0x36000000#32 = .ok .readFifoLength := by decide
theorem test_decode_flush_fifo : decode 0x37000000#32 = .ok .flushFifo := by decide
theorem test_decode_clear_fifo_flag : decode 0x38000000#32 = .ok .clearFifoFlag := by decide
theorem test_decode_burst_open : decode 0x40000000#32 = .ok .burstOpen := by decide
theorem test_decode_burst_next : decode 0x41000000#32 = .ok .burstNext := by decide
theorem test_decode_burst_close : decode 0x42000000#32 = .ok .burstClose := by decide

/-- The decoder refuses a word. -/
def illegal (w : Word) : Bool :=
  match decode w with
  | .ok _ => false
  | .error _ => true

theorem test_illegal_opcodes : illegal 0x00000000#32 ∧ illegal 0xFFFFFFFF#32 ∧ illegal 0x05000000#32 ∧ illegal 0x0F000000#32 ∧
    illegal 0x15000000#32 ∧ illegal 0x25000000#32 ∧ illegal 0x39000000#32 ∧ illegal 0x43000000#32 := by decide
theorem test_illegal_fields : illegal 0x03000001#32 ∧ illegal 0x02010000#32 ∧ illegal 0x41000001#32 ∧ illegal 0x24000100#32 ∧
    illegal 0x11004101#32 ∧ illegal 0x10010055#32 ∧ illegal 0x20300A01#32 ∧ illegal 0x32000100#32 ∧ illegal 0x01010A03#32 ∧
    illegal 0x04010064#32 := by decide

/-! ### Lifecycle (2.2) -/

theorem test_bind : events (.bind 10#8 3#8) (unbound silent) = some [.acq 10#8] ∧
    response (.bind 10#8 3#8) (unbound silent) = some (0#4, 0#32) ∧
    field State.driver (.bind 10#8 3#8) (unbound silent) = some (some driver10) := by decide
/-- The model check comes before the BOUND check (2.7). -/
theorem test_bind_refused : response (.bind 10#8 9#8) (ready .reset silent) = some (1#4, 0#32) ∧
    response (.bind 11#8 3#8) (ready .reset silent) = some (3#4, 0#32) := by decide
theorem test_release : events .release (ready .frameReady silent) = some [.rel 10#8] ∧
    response .release (ready .frameReady silent) = some (0#4, 0x0000000A#32) ∧
    field State.cap .release (ready .frameReady silent) = some .uninitialized := by decide
theorem test_status_after_lease : response .status { reading silent with err := .lease, sRefused := true } =
    some (0#4, 0x00001447#32) := by decide
theorem test_status_all_flags : response .status { ready .reset silent with sRefused := true, sPrecond := true, sSbaddr := true, sRawmgd := true } =
    some (0#4, 0x0000F019#32) := by decide
theorem test_setdly : field State.tResetMs (.setdly 65535#16) (unbound silent) = some 65535#16 := by decide

/-! ### Register access (2.3): 0xEE stands for a byte the block drops -/

theorem test_write_reg_managed : events (.writeReg 0x84#8 0x02#8) (ready .uninitialized (answers [0xEE#8, 0xEE#8])) =
      some [.csLow, .xfer 0x84#8 0xEE#8, .xfer 0x02#8 0xEE#8, .csHigh] ∧
    response (.writeReg 0x84#8 0x02#8) (ready .uninitialized (answers [0xEE#8, 0xEE#8])) = some (7#4, 0#32) := by decide
theorem test_read_reg_masks_the_address : events (.readReg 0xC1#8) (ready .reset (answers [0xEE#8, 0xA5#8])) =
      some [.csLow, .xfer 0x41#8 0xEE#8, .xfer 0x00#8 0xA5#8, .csHigh] ∧
    response (.readReg 0xC1#8) (ready .reset (answers [0xEE#8, 0xA5#8])) = some (0#4, 0x000000A5#32) := by decide
theorem test_set_bit : events (.setBit 0x03#8 0x02#8) (ready .reset (answers [0xEE#8, 0x10#8, 0xEE#8, 0xEE#8])) =
      some [.csLow, .xfer 0x03#8 0xEE#8, .xfer 0x00#8 0x10#8, .csHigh,
            .csLow, .xfer 0x83#8 0xEE#8, .xfer 0x12#8 0xEE#8, .csHigh] ∧
    field State.tmp (.setBit 0x03#8 0x02#8) (ready .reset (answers [0xEE#8, 0x10#8, 0xEE#8, 0xEE#8])) = some 0x10#8 := by decide
theorem test_clear_bit : events (.clearBit 0x03#8 0x3C#8) (ready .reset (answers [0xEE#8, 0xF0#8, 0xEE#8, 0xEE#8])) =
      some [.csLow, .xfer 0x03#8 0xEE#8, .xfer 0x00#8 0xF0#8, .csHigh,
            .csLow, .xfer 0x83#8 0xEE#8, .xfer 0xC0#8 0xEE#8, .csHigh] := by decide
/-- "any", not "all"; and the empty mask. -/
theorem test_get_bit : response (.getBit 0x41#8 0x0A#8) (ready .reset (answers [0xEE#8, 0x02#8])) = some (0#4, 1#32) ∧
    response (.getBit 0x41#8 0x00#8) (ready .reset (answers [0xEE#8, 0xFF#8])) = some (0#4, 0#32) := by decide

/-! ### Sensor bridge (2.4, S6) -/

theorem test_sensor_rd : events (.sensorRd 0x300A#16) (ready .capturing (answers [0x56#8])) = some [.sbRd 0x300A#16 0x56#8] ∧
    response (.sensorRd 0x300A#16) (ready .capturing (answers [0x56#8])) = some (0#4, 0x00000056#32) := by decide
theorem test_sensor_rd_invalid : response (.sensorRd 0x0001#16) (ready .reset (answers [0x07#8])) = some (6#4, 0x00000007#32) := by
  decide
theorem test_sensor_wr_both_flags : response (.sensorWr 0x0001#16 0x00#8) (ready .capturing silent) = some (5#4, 0#32) ∧
    field State.sPrecond (.sensorWr 0x0001#16 0x00#8) (ready .capturing silent) = some true ∧
    field State.sSbaddr (.sensorWr 0x0001#16 0x00#8) (ready .capturing silent) = some true := by decide
theorem test_sensor_wr : events (.sensorWr 0x3008#16 0x80#8) (ready .frameReady silent) = some [.sbWr 0x3008#16 0x80#8] ∧
    response (.sensorWr 0x3008#16 0x80#8) (ready .frameReady silent) = some (0#4, 0#32) := by decide
theorem test_chip_id_halves : response .getChipIdHigh (ready .reset (answers [0x56#8])) = some (0#4, 0x00000056#32) ∧
    events .getChipIdLow (ready .reset (answers [0x42#8])) = some [.sbRd 0x300B#16 0x42#8] := by decide
theorem test_chip_id : response .getChipId (ready .reset (answers [0x56#8, 0x42#8])) = some (0#4, 0x00005642#32) ∧
    response .getChipId (ready .reset (answers [0x00#8, 0x01#8])) = some (0#4, 0x00000001#32) := by decide

/-! ### Capture sequencer (2.5, S3, S7, S8) -/

theorem test_reset_cpld : events .resetCpld (ready .uninitialized (answers [1#8, 2#8, 3#8, 4#8])) =
    some [.csLow, .xfer 0x87#8 1#8, .xfer 0x80#8 2#8, .csHigh, .delay 100#16,
          .csLow, .xfer 0x87#8 3#8, .xfer 0x00#8 4#8, .csHigh, .delay 100#16] := by decide
theorem test_init_cam : events .initCam (ready .reset silent) =
      some [.sbWr 0x3008#16 0x80#8, .delay 100#16, .sbWr 0x3103#16 0x93#8] ∧
    field State.cap .initCam (ready .reset silent) = some .configured ∧
    field State.cap .initCam (ready .uninitialized silent) = some .uninitialized := by decide
theorem test_set_format : events (.setFormat 1#8) (ready .configured (answers [0#8, 0x13#8, 0#8, 0#8, 0#8, 0#8])) =
    some [.csLow, .xfer 0x03#8 0#8, .xfer 0x00#8 0x13#8, .csHigh, .csLow, .xfer 0x83#8 0#8, .xfer 0x11#8 0#8, .csHigh,
          .csLow, .xfer 0x81#8 0#8, .xfer 0x00#8 0#8, .csHigh] := by decide
/-- BOUND before the enumeration, the enumeration before the lease (2.7). -/
theorem test_set_format_refused : response (.setFormat 3#8) (unbound silent) = some (2#4, 0#32) ∧
    response (.setFormat 3#8) (reading silent) = some (1#4, 0#32) ∧
    response (.setFormat 1#8) (reading silent) = some (4#4, 0#32) := by decide
theorem test_set_jpeg_size : events (.setJpegSize 0#8) (ready .configured (answers [0#8, 0#8, 0#8, 0#8])) =
    some [.sbWr 0x1002#16 0x00#8, .csLow, .xfer 0x03#8 0#8, .xfer 0x00#8 0x00#8, .csHigh,
          .csLow, .xfer 0x83#8 0#8, .xfer 0x02#8 0#8, .csHigh] := by decide
theorem test_start_capture : field State.cap .startCapture (ready .configured (answers [0#8, 0#8])) = some .capturing ∧
    events .startCapture (ready .configured (answers [0#8, 0#8])) =
      some [.csLow, .xfer 0x84#8 0#8, .xfer 0x02#8 0#8, .csHigh] := by decide
/-- S7: not a rejection. -/
theorem test_start_capture_out_of_order : response .startCapture (ready .uninitialized (answers [0#8, 0#8])) = some (5#4, 0#32) ∧
    field State.cap .startCapture (ready .uninitialized (answers [0#8, 0#8])) = some .uninitialized := by decide
theorem test_capture_complete : response .captureComplete (ready .capturing (answers [0#8, 0xF7#8])) = some (0#4, 0#32) ∧
    response .captureComplete (ready .capturing (answers [0#8, 0x08#8])) = some (0#4, 1#32) ∧
    field State.cap .captureComplete (ready .capturing (answers [0#8, 0x08#8])) = some .frameReady := by decide
theorem test_capture_complete_out_of_order :
    response .captureComplete (ready .configured (answers [0#8, 0x08#8])) = some (5#4, 1#32) ∧
    field State.cap .captureComplete (ready .configured (answers [0#8, 0x08#8])) = some .configured := by decide
theorem test_read_fifo_length :
    response .readFifoLength (ready .frameReady (answers [0#8, 0x34#8, 0#8, 0x12#8, 0#8, 0x00#8])) = some (0#4, 0x00001234#32) ∧
    response .readFifoLength (ready .frameReady (answers [0#8, 0xFF#8, 0#8, 0xFF#8, 0#8, 0xFF#8])) = some (0#4, 0x00FFFFFF#32) := by
  decide
theorem test_flush_fifo : field State.cap .flushFifo (ready .frameReady (answers [0#8, 0#8])) = some .configured ∧
    response .flushFifo (ready .capturing (answers [0#8, 0#8])) = some (5#4, 0#32) := by decide
theorem test_clear_fifo_flag : events .clearFifoFlag (ready .configured (answers [0#8, 0#8])) =
    some [.csLow, .xfer 0x84#8 0#8, .xfer 0x01#8 0#8, .csHigh] := by decide

/-! ### Burst reader (2.6) -/

theorem test_burst_open : events .burstOpen (ready .frameReady (answers [0xEE#8])) = some [.csLow, .xfer 0x3C#8 0xEE#8] ∧
    field State.burst .burstOpen (ready .configured (answers [0xEE#8])) = some true ∧
    response .burstOpen (ready .configured (answers [0xEE#8])) = some (5#4, 0#32) := by decide
/-- On the double: the last byte of the frame, and its filler past the end. -/
theorem test_burst_next : response .burstNext (reading (.double { frameDouble with mode := .bursting, rp := 1 })) =
      some (0#4, 0x000000D8#32) ∧
    response .burstNext (reading (.double { frameDouble with mode := .bursting, rp := 3 })) = some (0#4, 0#32) := by decide
theorem test_burst_next_without_reader : response .burstNext (ready .frameReady silent) = some (4#4, 0#32) ∧
    response .burstClose (ready .frameReady silent) = some (4#4, 0#32) := by decide
theorem test_burst_close : events .burstClose (reading silent) = some [.csHigh] ∧
    field State.csN .burstClose (reading silent) = some (some true) := by decide

/-! ### One step, the double, the wire, the assembler -/

theorem test_step_illegal_word : (after (step (given 0xFFFFFFFF#32 (unbound silent)))).map (fun t => (t.err.code, t.sRefused)) =
    some (1#4, true) := by decide
theorem test_step_with_fetch_word : (after (step ((unbound silent).withFetchWord 32 0x01000A03))).map State.driver =
    some (some driver10) := by decide
/-- R56, R57: the double stores what is written and reports the done bit after `latency` polls. -/
theorem test_double_write : field State.periph (.writeReg 0x80#8 0x55#8) (ready .reset (.double frameDouble)) =
    some (.double { frameDouble with reg := [(0, 0x55#8)] }) := by decide
theorem test_double_poll : response .captureComplete (ready .capturing (.double { frameDouble with started := true, pollsLeft := 1 })) =
      some (0#4, 0#32) ∧
    response .captureComplete (ready .capturing (.double { frameDouble with started := true })) = some (0#4, 1#32) := by decide
/-- R115: bit 7 of the byte sent comes first, and after the eighth pulse `sclk` is idle low. -/
theorem test_serial_ends : (serialise 0x80#8 0x01#8 true true).head? = some ⟨false, true, false⟩ ∧
    (serialise 0x80#8 0x01#8 true true).drop 14 = [⟨false, false, true⟩, ⟨true, false, true⟩, ⟨false, true, true⟩] := by decide
/-- R196: a run with a word still waiting or with a live reader is not over; a flag makes it bad. -/
theorem test_over : (given 0x03000000#32 (ready .reset silent)).over = false ∧ (reading silent).over = false ∧
    (ready .reset silent).overAndGood = true ∧ State.overAndGood { ready .reset silent with sRefused := true } = true ∧
    State.overAndBad { ready .reset silent with sPrecond := true } = true := by decide
theorem test_assemble_lines : assembleLine table "SENSOR_WR 0x3008, 0x80 ; a write" = some [.sensorWr 0x3008#16 0x80#8] ∧
    assembleLine table "BIND 10, MODEL_OV5642" = some [.bind 10#8 3#8] ∧
    assembleLine { table with FMT_JPEG := 7#8 } "SET_FORMAT FMT_JPEG" = some [.setFormat 7#8] ∧
    assembleLine table "SET_JPEG_SIZE SIZE_2592x1944" = some [.setJpegSize 6#8] ∧
    assembleLine table "PRESENCE 0x55" = some [.writeReg 0x00#8 0x55#8, .readReg 0x00#8] ∧
    assembleLine table "SETDLY 65536" = none := by decide


/-! ### Witnesses: for every statement with hypotheses, a state and operands that meet them -/

theorem ready_is_ready (c : CapState) (p : Peripheral) : (ready c p).Ready driver10 := by
  constructor
  · constructor <;> simp [ready, unbound, State.reset, State.bound]
  · rfl
  · rfl
theorem reading_is_bursting (p : Peripheral) : (reading p).Bursting driver10 := by
  constructor
  · constructor <;> simp [reading, ready, unbound, State.reset, State.bound]
  · rfl
  · rfl
theorem unbound_has_inv (p : Peripheral) : (unbound p).Inv := by
  constructor <;> simp [unbound, State.reset, State.bound]

/-- The hypotheses of `malformedIsIllegal`, of `refusedUnbound` and of `refusedLease` are met: by the malformed word `w` on the
port of an idle block, by the unbound block, and by the bound state `s`. -/
def meetsRefusals (i : Instr) (w : Word) (burst : Bool) (s : State) : Prop :=
  (fieldOp w = i.row.op ∧ i.row.format.unusedZero w = false ∧ (given w s).phase = .idle ∧ (given w s).inputs = [.command w]) ∧
  ((unbound silent).phase = .idle ∧ (unbound silent).bound = false) ∧
  (s.phase = .idle ∧ s.driver = some driver10 ∧ enumOk i s.cfg driver10.model = true ∧ s.burst = burst)

theorem witness_ReleaseGivesThePinBack : meetsRefusals .release 0x02010000#32 true (reading silent) ∧
    (ready .frameReady silent).Ready driver10 := ⟨by unfold meetsRefusals; decide, ready_is_ready _ _⟩
theorem witness_WriteRegPutsAddressAndValueOnTheWire : meetsRefusals (.writeReg 0xFF#8 0xFF#8) 0x10010055#32 true (reading silent) ∧
    (ready .frameReady silent).Ready driver10 := ⟨by unfold meetsRefusals; decide, ready_is_ready _ _⟩
theorem witness_ReadRegReturnsTheDummyTransfersByte : meetsRefusals (.readReg 0xC1#8) 0x11004101#32 true (reading silent) ∧
    (ready .frameReady silent).Ready driver10 := ⟨by unfold meetsRefusals; decide, ready_is_ready _ _⟩
theorem witness_SetBitWritesBackTheByteReadOrMask : meetsRefusals (.setBit 0x84#8 0x00#8) 0x12FF0302#32 true (reading silent) ∧
    (ready .frameReady silent).Ready driver10 := ⟨by unfold meetsRefusals; decide, ready_is_ready _ _⟩
theorem witness_ClearBitWritesBackTheByteReadAndNotMask : meetsRefusals (.clearBit 0x00#8 0xFF#8) 0x13010302#32 true (reading silent) ∧
    (ready .frameReady silent).Ready driver10 := ⟨by unfold meetsRefusals; decide, ready_is_ready _ _⟩
theorem witness_GetBitReportsAnyBitOfTheMask : meetsRefusals (.getBit 0x41#8 0x08#8) 0x14804108#32 true (reading silent) ∧
    (ready .frameReady silent).Ready driver10 := ⟨by unfold meetsRefusals; decide, ready_is_ready _ _⟩
theorem witness_SensorRdMakesOneExchange : meetsRefusals (.sensorRd 0xFFFF#16) 0x20300A01#32 true (reading silent) ∧
    (ready .frameReady silent).Ready driver10 := ⟨by unfold meetsRefusals; decide, ready_is_ready _ _⟩
theorem witness_ChipIdCombinesHighAndLow : meetsRefusals .getChipId 0x24000100#32 true (reading silent) ∧
    (ready .frameReady silent).Ready driver10 := ⟨by unfold meetsRefusals; decide, ready_is_ready _ _⟩
theorem witness_ResetCpldPulsesHighThenLow : meetsRefusals .resetCpld 0x30000001#32 true (reading silent) ∧
    (ready .frameReady silent).Ready driver10 := ⟨by unfold meetsRefusals; decide, ready_is_ready _ _⟩
theorem witness_InitCamRunsTheBringUpSequence : meetsRefusals .initCam 0x31000001#32 true (reading silent) ∧
    (ready .frameReady silent).Ready driver10 := ⟨by unfold meetsRefusals; decide, ready_is_ready _ _⟩
theorem witness_StartCaptureWritesTheTrigger : meetsRefusals .startCapture 0x34000001#32 true (reading silent) ∧
    (ready .frameReady silent).Ready driver10 := ⟨by unfold meetsRefusals; decide, ready_is_ready _ _⟩
theorem witness_CaptureCompletePollsTheDoneBit : meetsRefusals .captureComplete 0x35000001#32 true (reading silent) ∧
    (ready .frameReady silent).Ready driver10 := ⟨by unfold meetsRefusals; decide, ready_is_ready _ _⟩
theorem witness_ReadFifoLengthAssemblesThreeReads : meetsRefusals .readFifoLength 0x36000001#32 true (reading silent) ∧
    (ready .frameReady silent).Ready driver10 := ⟨by unfold meetsRefusals; decide, ready_is_ready _ _⟩
theorem witness_FlushFifoWritesTheFlushValue : meetsRefusals .flushFifo 0x37000001#32 true (reading silent) ∧
    (ready .frameReady silent).Ready driver10 := ⟨by unfold meetsRefusals; decide, ready_is_ready _ _⟩
theorem witness_ClearFifoFlagWritesTheClearValue : meetsRefusals .clearFifoFlag 0x38000001#32 true (reading silent) ∧
    (ready .frameReady silent).Ready driver10 := ⟨by unfold meetsRefusals; decide, ready_is_ready _ _⟩
theorem witness_BurstOpenLeavesTheTransactionOpen : meetsRefusals .burstOpen 0x40000001#32 true (reading silent) ∧
    (ready .frameReady silent).Ready driver10 := ⟨by unfold meetsRefusals; decide, ready_is_ready _ _⟩
theorem witness_BurstNextReturnsTheNextByte : meetsRefusals .burstNext 0x41000001#32 false (ready .frameReady silent) ∧
    (reading silent).Bursting driver10 := ⟨by unfold meetsRefusals; decide, reading_is_bursting _⟩
theorem witness_BurstCloseDeassertsChipSelect : meetsRefusals .burstClose 0x42000001#32 false (ready .frameReady silent) ∧
    (reading silent).Bursting driver10 := ⟨by unfold meetsRefusals; decide, reading_is_bursting _⟩
theorem witness_SensorWrMakesOneExchange : fieldOp 0x21FFFFFF#32 = 0x21#8 ∧
    ((unbound silent).phase = .idle ∧ (unbound silent).bound = false) ∧
    ((reading silent).phase = .idle ∧ (reading silent).driver = some driver10 ∧ (reading silent).burst = true ∧
      enumOk (.sensorWr 0xFFFF#16 0xFF#8) (reading silent).cfg driver10.model = true) ∧
    (ready .capturing silent).Ready driver10 := ⟨by decide, by decide, by decide, ready_is_ready _ _⟩
theorem witness_ChipIdHalvesAreReadAtTheModelsAddresses : meetsRefusals .getChipIdHigh 0x22000001#32 true (reading silent) ∧
    meetsRefusals .getChipIdLow 0x23010000#32 true (reading silent) ∧ (ready .capturing silent).Ready driver10 :=
  ⟨by unfold meetsRefusals; decide, by unfold meetsRefusals; decide, ready_is_ready _ _⟩
theorem witness_SetFormatRunsTheFormatSequence : meetsRefusals (.setFormat 2#8) 0x32000100#32 true (reading silent) ∧
    (ready .configured silent).cfg.fmtValid driver10.model 3#8 = false ∧ (ready .configured silent).phase = .idle ∧
    (ready .configured silent).Ready driver10 ∧ (ready .configured silent).cfg.fmtValid driver10.model 2#8 = true :=
  ⟨by unfold meetsRefusals; decide, by decide, by decide, ready_is_ready _ _, by decide⟩
theorem witness_SetJpegSizeRunsTheSizeSequence : meetsRefusals (.setJpegSize 6#8) 0x33010006#32 true (reading silent) ∧
    (ready .configured silent).cfg.sizeValid driver10.model 7#8 = false ∧ (ready .configured silent).phase = .idle ∧
    (ready .configured silent).Ready driver10 ∧ (ready .configured silent).cfg.sizeValid driver10.model 6#8 = true :=
  ⟨by unfold meetsRefusals; decide, by decide, by decide, ready_is_ready _ _, by decide⟩

/-- The hypotheses of `malformedIsIllegal` for the commands that need no driver. -/
def meetsMalformed (i : Instr) (w : Word) : Prop :=
  fieldOp w = i.row.op ∧ i.row.format.unusedZero w = false ∧ (given w (unbound silent)).phase = .idle ∧
    (given w (unbound silent)).inputs = [.command w]

theorem witness_BindCreatesTheInstance : meetsMalformed (.bind 10#8 3#8) 0x01010A03#32 ∧
    (unbound silent).cfg.modelValid 9#8 = false ∧
    ((ready .reset silent).cfg.modelValid 3#8 = true ∧ (ready .reset silent).bound = true ∧ (ready .reset silent).phase = .idle) ∧
    ((unbound silent).cfg.modelValid 3#8 = true ∧ (unbound silent).bound = false ∧ (unbound silent).phase = .idle) := by
  unfold meetsMalformed; decide
theorem witness_StatusReportsTheStateBeforeIt : meetsMalformed .status 0x03000001#32 ∧ (reading silent).phase = .idle := by
  unfold meetsMalformed; decide
theorem witness_SetdlyWritesTheDelay : meetsMalformed (.setdly 0#16) 0x04010064#32 ∧ (reading silent).phase = .idle := by
  unfold meetsMalformed; decide

theorem witness_DecodedWordIsTheCommandsEncoding : decode 0x21FFFFFF#32 = .ok (.sensorWr 0xFFFF#16 0xFF#8) := by decide
theorem witness_DecoderRejectsExactlyTheUnlistedWords : (∃ e, decode 0x43000000#32 = .error e) ∧
    ¬ (∀ r ∈ opcodeMap, 0x42000000#32 &&& r.format.mask ≠ r.pattern) := ⟨⟨_, rfl⟩, by decide⟩
theorem witness_StepRunsTheDecodedCommand : (given 0x03000000#32 (reading silent)).phase = .idle ∧
    (given 0x03000000#32 (reading silent)).inputs = [.command 0x03000000#32] ∧ decode 0x03000000#32 = .ok .status := by decide
theorem witness_IllegalWordsAreRefused : (given 0x05000000#32 (reading silent)).phase = .idle ∧
    (given 0x05000000#32 (reading silent)).inputs = [.command 0x05000000#32] ∧
    ∀ r ∈ opcodeMap, 0x05000000#32 &&& r.format.mask ≠ r.pattern := by decide
theorem witness_BlockResetGivesTheResetValues :
    State.inputs { reading silent with inputs := [.reset] } = [.reset] ∧
    State.inputs { ready .capturing silent with inputs := [.reset] } = [.reset] ∧ (reading silent).txn = true ∧
    (ready .capturing silent).txn = false := by decide
theorem witness_OwnershipIsCheckedAtRunTime :
    ((unbound silent).phase = .idle ∧ (unbound silent).bound = false ∧ needsNoDriver .burstNext = false ∧
      (unbound silent).cfg.modelValid 3#8 = true) ∧
    ((ready .reset silent).phase = .idle ∧ (ready .reset silent).bound = true ∧ (ready .reset silent).cfg.modelValid 3#8 = true) := by
  decide
theorem witness_LeaseIsCheckedAtRunTime :
    ((reading silent).Inv ∧ (reading silent).driver = some driver10 ∧ (reading silent).burst = true ∧
      needsNoDriver .release = false ∧ enumOk .release (reading silent).cfg driver10.model = true ∧
      (reading silent).cfg.modelValid 3#8 = true) ∧
    ((ready .frameReady silent).Inv ∧ (ready .frameReady silent).driver = some driver10 ∧ (ready .frameReady silent).burst = false) :=
  ⟨⟨(reading_is_bursting _).inv, by decide⟩, ⟨(ready_is_ready _ _).inv, by decide⟩⟩
theorem witness_EnumeratedOperandsAreChecked :
    ((reading silent).phase = .idle ∧ (reading silent).driver = some driver10 ∧ (reading silent).cfg.modelValid 9#8 = false ∧
      (reading silent).cfg.fmtValid driver10.model 3#8 = false ∧ (reading silent).cfg.sizeValid driver10.model 7#8 = false) ∧
    (∃ t, exec (.writeReg 0xFF#8 0xFF#8) (unbound silent) = .next t) := ⟨by decide, _, rfl⟩
theorem witness_RefusedCommandHasDoneNothing : (reading silent).phase = .idle ∧
    ∃ t, exec (.readReg 0x00#8) (reading silent) = .next t ∧ t.err ∈ refusalCodes := ⟨by decide, _, rfl, by decide⟩
theorem witness_CapFollowsTheTransitionTable :
    (∃ t, exec .startCapture (ready .configured (answers [0#8, 0#8])) = .next t ∧ t.err ∉ refusalCodes ∧
      (ready .configured silent).cap ∈ legalIn .startCapture) ∧
    (∃ t, exec .startCapture (ready .uninitialized (answers [0#8, 0#8])) = .next t ∧ t.err ∉ refusalCodes ∧
      (ready .uninitialized silent).cap ∉ legalIn .startCapture) :=
  ⟨⟨_, rfl, by decide, by decide⟩, ⟨_, rfl, by decide, by decide⟩⟩
theorem witness_CapNeverChangesTheWire : ∃ t, exec .startCapture (ready .configured (answers [0#8, 0#8])) = .next t ∧
    Instr.startCapture ≠ .status := ⟨_, rfl, by decide⟩
theorem witness_NothingInterruptsALiveReader : (reading silent).Bursting driver10 ∧ Instr.release ≠ .burstNext ∧
    Instr.release ≠ .burstClose := ⟨reading_is_bursting _, by decide, by decide⟩
theorem witness_BurstOfNBytesIsOneTransaction : (ready .frameReady silent).Ready driver10 ∧ (ready .frameReady silent).cap = .frameReady ∧
    (ready .capturing silent).Ready driver10 ∧ (ready .capturing silent).cap ≠ .frameReady :=
  ⟨ready_is_ready _ _, rfl, ready_is_ready _ _, by decide⟩
theorem given_has_inv (w : Word) (s : State) (h : s.Inv) : (given w s).Inv := ⟨h.1, h.2, h.3, h.4, h.5⟩
theorem witness_StepKeepsTheBoundaryInvariant : (given 0x40000000#32 (ready .frameReady (answers [0#8]))).Inv ∧
    ∃ t, step (given 0x40000000#32 (ready .frameReady (answers [0#8]))) = .next t ∧ t.burst = true :=
  ⟨given_has_inv _ _ (ready_is_ready _ _).inv, _, rfl, by decide⟩
theorem witness_EveryCommandEndsWithOneResponse : (ready .reset silent).Inv ∧ (ready .reset silent).burst = false ∧
    Instr.status ≠ .burstOpen := ⟨(ready_is_ready _ _).inv, by decide, by decide⟩
theorem witness_CommandsOnlyAppendToTheTrace : ∃ t, exec .burstClose (reading silent) = .next t ∧ t.trace = [.csHigh] :=
  ⟨_, rfl, by decide⟩
theorem witness_NoCommandClearsAStickyFlag :
    ∃ t, exec .status { reading silent with sRefused := true, sPrecond := true, sSbaddr := true, sRawmgd := true } = .next t :=
  ⟨_, rfl⟩
theorem witness_OnlyRawCommandsRaiseTheRawFlags : rawCommand .startCapture = false ∧
    ∃ t, exec .startCapture (ready .configured (answers [0#8, 0#8])) = .next t := ⟨by decide, _, rfl⟩
theorem witness_NoStepChangesAParameter : ∃ t, step (given 0x02000000#32 (ready .reset silent)) = .next t := ⟨_, rfl⟩
theorem witness_StepKeepsTheModelValid : (given 0x01000A03#32 (unbound silent)).modelKnown ∧ (ready .reset silent).modelKnown ∧
    ∃ t, step (given 0x01000A03#32 (unbound silent)) = .next t ∧ t.bound = true := by
  refine ⟨fun d h => ?_, fun d h => ?_, _, rfl, by decide⟩
  · simp [given, unbound, State.reset] at h
  · cases h; decide
theorem witness_StepKeepsTheDoubleInStep :
    ((given 0x40000000#32 (ready .frameReady (.double frameDouble))).Inv ∧
      (given 0x40000000#32 (ready .frameReady (.double frameDouble))).doubleFollows) ∧
    ((reading (.double { frameDouble with mode := .bursting })).Inv ∧
      (reading (.double { frameDouble with mode := .bursting })).doubleFollows) ∧
    ∃ t, step (given 0x40000000#32 (ready .frameReady (.double frameDouble))) = .next t := by
  refine ⟨⟨given_has_inv _ _ (ready_is_ready _ _).inv, ?_⟩, ⟨(reading_is_bursting _).inv, ?_⟩, _, rfl⟩
  · simp [State.doubleFollows, given, ready, unbound, frameDouble, Double.initial, State.reset]
  · simp [State.doubleFollows, reading, ready, unbound]
theorem witness_StepKeepsTheDoublesMemoriesCanonical :
    (ready .reset (.double { frameDouble with reg := [(0, 0x55#8), (3, 0x10#8)] })).periph.wf ∧
    ∃ t, step (given 0x10000055#32 (ready .reset (.double frameDouble))) = .next t :=
  ⟨show Memory.wf _ ∧ Memory.wf _ by decide, _, rfl⟩
/-- The double's hypotheses, at the first and at the last register of the index range; and at a managed one. -/
theorem witness_DoubleStoresOnlyTheByteWritten : (ready .reset (.double frameDouble)).Inv ∧
    (ready .reset (.double frameDouble)).driver = some driver10 ∧ (frameDouble.reg.wf ∧ frameDouble.sreg.wf) ∧
    table.oneWriteBit = true ∧ table.burstCmdIsRead = true ∧ (ready .reset (.double frameDouble)).burst = false ∧
    (∃ t, exec (.writeReg 0xFF#8 0xFF#8) (ready .reset (.double frameDouble)) = .next t) ∧
    (∃ t, exec (.sensorWr 0xFFFF#16 0xFF#8) (ready .reset (.double frameDouble)) = .next t) ∧
    (∃ t, exec .captureComplete (ready .reset (.double frameDouble)) = .next t) ∧
    (reading (.double { frameDouble with mode := .bursting })).Inv ∧
    (∃ t, exec .burstNext (reading (.double { frameDouble with mode := .bursting })) = .next t ∧ t.err = .ok) :=
  ⟨(ready_is_ready _ _).inv, by decide, by decide, by decide, by decide, by decide, ⟨_, rfl⟩, ⟨_, rfl⟩, ⟨_, rfl⟩,
    (reading_is_bursting _).inv, _, rfl, by decide⟩
theorem witness_DoubleReadsBackWhatWasWritten : (ready .reset (.double frameDouble)).Ready driver10 ∧ frameDouble.reg.wf ∧
    table.oneWriteBit = true ∧ plainRegister table 0x00#8 = true ∧ plainRegister table 0xFF#8 = true :=
  ⟨ready_is_ready _ _, by decide⟩
theorem witness_DoubleObeysTheBitLaws : (ready .reset (.double frameDouble)).Ready driver10 ∧ frameDouble.reg.wf ∧
    table.oneWriteBit = true ∧ plainRegister table 0x83#8 = true := ⟨ready_is_ready _ _, by decide⟩
/-- By an oracle that answers 0x10 to the first read and the byte written to the second: 0x12 after SET_BIT, 0x10 after
CLEAR_BIT, of the mask 0x02. -/
theorem witness_RoundTripLawGivesTheBitLaws :
    let p := answers [0xEE#8, 0x10#8, 0xEE#8, 0xEE#8, 0xEE#8, 0x12#8]
    let q := answers [0xEE#8, 0x10#8, 0xEE#8, 0xEE#8, 0xEE#8, 0x10#8]
    let read := fun r : Peripheral => r.hears table (0x03#8 &&& ~~~table.WRITE_BIT) table.DUMMY
    (ready .reset p).Ready driver10 ∧ (ready .reset q).Ready driver10 ∧
    (read p).after.roundTrips table 0x03#8 ((read p).second ||| 0x02#8) ∧
    (read q).after.roundTrips table 0x03#8 ((read q).second &&& ~~~0x02#8) :=
  ⟨ready_is_ready _ _, ready_is_ready _ _, rfl, rfl⟩
theorem witness_DoubleStreamsTheFrameInOrder : table.burstCmdIsRead = true ∧ 3 ≤ frameDouble.fifo.length := by decide
theorem witness_ReopenedBurstStartsAtByteZero : (ready .frameReady (.double frameDouble)).Ready driver10 ∧
    (ready .capturing (.double frameDouble)).Ready driver10 ∧ table.burstCmdIsRead = true ∧ 3 ≤ frameDouble.fifo.length :=
  ⟨ready_is_ready _ _, ready_is_ready _ _, by decide⟩

end Sys2Proof.Tests
end

namespace Sys2Proof.Machine

/-! ### The parameter table is fixed (00_scope.md R5) -/

@[simp] theorem blockReset_cfg (s : State) : (blockReset s).cfg = s.cfg := rfl

/-- A command that ends leaves the parameter table alone, refused or executed. -/
theorem Ended.cfg {i : Instr} {s t : State} (h : Ended i s t) : t.cfg = s.cfg := by
  obtain ⟨e, -, rfl, -⟩ | ⟨u, rfl, ran⟩ := h
  · exact refuse_cfg e s
  · rw [finish_cfg, ran.cfg]

/-- Settles O50, by the cases of a step: the block holds, is reset, or takes a word, which runs or is refused. -/
theorem noStepChangesAParameter : Obligations.NoStepChangesAParameter := by
  intro s t h
  obtain rfl | ⟨rest, -, rfl⟩ | ⟨w, rest, -, -, ⟨i, hi⟩ | rfl⟩ := step_cases h
  · rfl
  · rw [blockReset_cfg]
  · exact (exec_ended i _ t hi).cfg
  · rw [refuse_cfg]

end Sys2Proof.Machine

namespace Sys2Proof.Machine

/-! ### The bus line at the command boundary (10_state.md R26)

I1 to I3 say that the line is in one of two conditions, and no other. -/

/-- The line at rest: chip-select high, no transaction, no live reader. -/
def State.AtRest (s : State) : Prop := s.cs = true ∧ s.txn = false ∧ s.burst = false

/-- The bus held by a live reader: chip-select low, its transaction open, the driver bound. -/
def State.HoldsBus (s : State) : Prop := s.cs = false ∧ s.txn = true ∧ s.burst = true ∧ s.bound = true

theorem State.AtRest.noTxn {s : State} (h : s.AtRest) : s.txn = false := h.2.1
theorem State.AtRest.noBurst {s : State} (h : s.AtRest) : s.burst = false := h.2.2

/-- The invariant of R26 as the two conditions of the line and, of I4, what it adds to them. -/
theorem State.inv_iff {s : State} :
    s.Inv ↔ s.phase = .idle ∧ (s.AtRest ∨ s.HoldsBus) ∧ (s.bound = false → s.cap = .uninitialized) := by
  constructor
  · rintro ⟨idle, low, burst, bound, clear⟩
    refine ⟨idle, ?_, fun hu => ?_⟩
    · cases ht : s.txn with
      | false => exact .inl ⟨by simpa [ht] using low, ht, burst ▸ ht⟩
      | true => exact .inr ⟨low.1 ht, ht, burst ▸ ht, bound (burst ▸ ht)⟩
    · obtain ⟨-, -, -, hcap⟩ := clear hu
      exact hcap
  · rintro ⟨idle, ⟨hcs, htxn, hburst⟩ | ⟨hcs, htxn, hburst, hbound⟩, hcap⟩
    · exact ⟨idle, by simp [hcs, htxn], by rw [htxn, hburst], by simp [hburst], fun hu => ⟨hcs, htxn, hburst, hcap hu⟩⟩
    · exact ⟨idle, by simp [hcs, htxn], by rw [htxn, hburst], fun _ => hbound,
        fun hu => nomatch hbound.symm.trans hu⟩

/-- A refusal leaves the line, the driver and CAP alone, and the block IDLE (R172). -/
theorem refuse_inv {s : State} (e : Err) (h : s.Inv) : (refuse e s).Inv :=
  ⟨rfl, h.txn_iff_low, h.txn_eq_burst, h.burst_bound, h.unbound_clear⟩

/-- The host's acts to come are no part of the invariant (R27). -/
theorem State.Inv.withInputs {s : State} (acts : List HostAct) (h : s.Inv) : State.Inv { s with inputs := acts } :=
  ⟨h.idle, h.txn_iff_low, h.txn_eq_burst, h.burst_bound, h.unbound_clear⟩

theorem reset_inv : State.reset.Inv := State.inv_iff.2 ⟨rfl, .inl ⟨rfl, rfl, rfl⟩, fun _ => rfl⟩

theorem blockReset_inv (s : State) : (blockReset s).Inv := State.inv_iff.2 ⟨rfl, .inl ⟨rfl, rfl, rfl⟩, fun _ => rfl⟩

/-! ### Operations outside a transaction leave the line at rest -/

theorem check_atRest {s : State} (l : List CapState) (hs : s.AtRest) : (check l s).AtRest := by
  unfold check; split <;> exact hs

theorem flagManaged_atRest {s : State} (a : Byte) (hs : s.AtRest) : (flagManaged a s).AtRest := by
  unfold flagManaged; split <;> exact hs

theorem flagAddr_atRest {s : State} (d : Driver) (a : Half) (hs : s.AtRest) : (flagAddr d a s).AtRest := by
  unfold flagAddr; split <;> exact hs

theorem moveCap_atRest {s : State} (ok : Bool) (c : CapState) (hs : s.AtRest) : (moveCap ok c s).AtRest := by
  simpa [State.AtRest] using hs

theorem afterReg_atRest {s : State} (o p : Byte) (hs : s.AtRest) : (afterReg o p s).AtRest :=
  ⟨rfl, rfl, hs.noBurst⟩

theorem writeReg_atRest {s t : State} {a v : Byte} (h : writeReg a v s = .ok t) (hs : s.AtRest) : t.AtRest := by
  obtain ⟨hb, ht⟩ := writeReg_next h
  rw [writeReg_ok a v hb ht] at h
  cases h
  exact afterReg_atRest _ _ hs

theorem readReg_atRest {s : State} {a : Byte} {r : Byte × State} (h : readReg a s = .ok r) (hs : s.AtRest) :
    r.2.AtRest := by
  obtain ⟨hb, ht⟩ := readReg_next h
  rw [readReg_ok a hb ht] at h
  cases h
  exact afterReg_atRest _ _ hs

theorem modifyReg_atRest {s t : State} {a : Byte} {f : Byte → Byte} (h : modifyReg a f s = .ok t) (hs : s.AtRest) :
    t.AtRest := by
  unfold modifyReg at h
  rw [Exec.bind_ok_iff] at h
  obtain ⟨r, hr, hw⟩ := h
  exact writeReg_atRest hw (readReg_atRest hr hs)

theorem delay_atRest {s t : State} {ms : Half} (h : delay ms s = .ok t) (hs : s.AtRest) : t.AtRest := by
  rw [delay_ok ms hs.noTxn] at h
  cases h
  exact hs

theorem sbRead_atRest {s : State} {a : Half} {r : Byte × State} (h : sbRead a s = .ok r) (hs : s.AtRest) :
    r.2.AtRest := by
  rw [sbRead_ok a hs.noTxn] at h
  cases h
  exact hs

theorem sbWrite_atRest {s t : State} {a : Half} {v : Byte} (h : sbWrite a v s = .ok t) (hs : s.AtRest) : t.AtRest := by
  rw [sbWrite_ok a v hs.noTxn] at h
  cases h
  exact hs

theorem runStep_atRest {s t : State} {v : VendorStep} (h : runStep v s = .ok t) (hs : s.AtRest) : t.AtRest := by
  cases v <;> simp only [runStep] at h
  case sw => exact sbWrite_atRest h hs
  case rw => exact writeReg_atRest h hs
  case rs => exact modifyReg_atRest h hs
  case rc => exact modifyReg_atRest h hs
  case dl => exact delay_atRest h hs

theorem runSeq_atRest {seq : List VendorStep} {s t : State} (h : runSeq seq s = .ok t) (hs : s.AtRest) : t.AtRest := by
  induction seq generalizing s with
  | nil => cases h; exact hs
  | cons v seq ih =>
    unfold runSeq at h
    split at h
    next u hv => exact ih h (runStep_atRest hv hs)
    next => simp at h

/-! ### Commands -/

/-- What a driver command that ends has done: it was refused, or its body ran from its start (R170 steps 5 to 8). -/
theorem runDriver_next {i : Instr} {s t : State} {body : Driver → State → Exec} (h : runDriver i s body = .next t) :
    (∃ e, t = refuse e s) ∨
    ∃ d u, s.driver = some d ∧ s.burst = needsReader i ∧ body d (begin i s) = .ok u ∧ t = finish u := by
  obtain ⟨-, hr⟩ | ⟨d, -, -, hr⟩ | ⟨d, -, -, -, hr⟩ | ⟨d, hd, -, hbu, hr⟩ := runDriver_cases i s body <;> rw [hr] at h
  · cases h; exact .inl ⟨_, rfl⟩
  · cases h; exact .inl ⟨_, rfl⟩
  · cases h; exact .inl ⟨_, rfl⟩
  · obtain ⟨u, hu, rfl⟩ := complete_next h
    exact .inr ⟨d, u, hd, hbu, hu, rfl⟩

/-- From rest, a driver command whose body leaves the line at rest does so. -/
theorem runDriver_atRest {i : Instr} {s t : State} {body : Driver → State → Exec} (h : runDriver i s body = .next t)
    (hs : s.AtRest) (hb : ∀ d u, (begin i s).AtRest → body d (begin i s) = .ok u → u.AtRest) : t.AtRest := by
  obtain ⟨e, rfl⟩ | ⟨d, u, -, -, hu, rfl⟩ := runDriver_next h
  · exact hs
  · exact hb d u hs hu

/-- From rest, the two commands of a live reader are refused (R176). -/
theorem runDriver_reader_atRest {i : Instr} {s t : State} {body : Driver → State → Exec}
    (h : runDriver i s body = .next t) (hn : needsReader i = true) (hs : s.AtRest) : t.AtRest := by
  obtain ⟨e, rfl⟩ | ⟨d, u, -, hbu, -⟩ := runDriver_next h
  · exact hs
  · simp [hn, hs.noBurst] at hbu

/-- While a reader is live every other driver command is refused (R163, R176), so the reader keeps the bus. -/
theorem runDriver_holdsBus {i : Instr} {s t : State} {body : Driver → State → Exec} (h : runDriver i s body = .next t)
    (hn : needsReader i = false) (hs : s.HoldsBus) : t.HoldsBus := by
  obtain ⟨e, rfl⟩ | ⟨d, u, -, hbu, -⟩ := runDriver_next h
  · exact hs
  · obtain ⟨-, -, hburst, -⟩ := hs
    simp [hn, hburst] at hbu

/-- BIND that ends was refused, or has found the block unbound and left the line at rest (R100). -/
theorem execBind_next {pin model : Byte} {s t : State} (h : execBind pin model s = .next t) :
    (∃ e, t = refuse e s) ∨ (s.bound = false ∧ t.AtRest) := by
  unfold execBind runBind at h
  split at h
  · split at h
    next => cases h; exact .inl ⟨_, rfl⟩
    next hb => cases h; exact .inr ⟨by simpa using hb, rfl, rfl, rfl⟩
  · cases h; exact .inl ⟨_, rfl⟩

/-- From rest, every command but BURST_OPEN ends at rest (R160: no other ends with TXN = 1). Each driver command is followed
through the operations its body is made of. -/
theorem exec_atRest {i : Instr} {s t : State} (h : exec i s = .next t) (hi : i ≠ .burstOpen) (hs : s.AtRest) :
    t.AtRest := by
  cases i <;> simp only [exec] at h
  case burstOpen => exact absurd rfl hi
  case bind =>
    obtain ⟨e, rfl⟩ | ⟨-, ht⟩ := execBind_next h
    · exact hs
    · exact ht
  case status => cases h; exact hs
  case setdly => cases h; exact hs
  case burstNext => exact runDriver_reader_atRest h rfl hs
  case burstClose => exact runDriver_reader_atRest h rfl hs
  all_goals
    refine runDriver_atRest h hs fun d u hs hu => ?_
    simp only [Exec.bind_ok_iff, Exec.pure_eq] at hu
  case release =>
    cases hu
    exact ⟨rfl, hs.noTxn, hs.noBurst⟩
  case writeReg a _ =>
    obtain ⟨w, hw, hu⟩ := hu; cases hu
    exact (writeReg_atRest hw (flagManaged_atRest a hs) :)
  case setBit a _ =>
    obtain ⟨w, hw, hu⟩ := hu; cases hu
    exact (modifyReg_atRest hw (flagManaged_atRest a hs) :)
  case clearBit a _ =>
    obtain ⟨w, hw, hu⟩ := hu; cases hu
    exact (modifyReg_atRest hw (flagManaged_atRest a hs) :)
  case readReg =>
    obtain ⟨w, hw, hu⟩ := hu; cases hu
    exact readReg_atRest hw hs
  case getBit =>
    obtain ⟨w, hw, hu⟩ := hu; cases hu
    exact readReg_atRest hw hs
  case sensorRd a =>
    obtain ⟨w, hw, hu⟩ := hu; cases hu
    exact sbRead_atRest hw (flagAddr_atRest d a hs)
  case sensorWr a _ =>
    obtain ⟨w, hw, hu⟩ := hu; cases hu
    exact (sbWrite_atRest hw (flagAddr_atRest d a (check_atRest _ hs)) :)
  case getChipIdHigh =>
    obtain ⟨w, hw, hu⟩ := hu; cases hu
    exact sbRead_atRest hw hs
  case getChipIdLow =>
    obtain ⟨w, hw, hu⟩ := hu; cases hu
    exact sbRead_atRest hw hs
  case getChipId =>
    obtain ⟨w, hw, x, hx, hu⟩ := hu; cases hu
    exact sbRead_atRest hx (sbRead_atRest hw hs)
  case resetCpld =>
    obtain ⟨w, hw, x, hx, y, hy, z, hz, hu⟩ := hu; cases hu
    exact (delay_atRest hz (writeReg_atRest hy (delay_atRest hx (writeReg_atRest hw hs))) :)
  case initCam =>
    obtain ⟨w, hw, hu⟩ := hu; cases hu
    exact moveCap_atRest _ _ (runSeq_atRest hw (check_atRest _ hs))
  case setFormat =>
    obtain ⟨w, hw, hu⟩ := hu; cases hu
    exact (runSeq_atRest hw (check_atRest _ hs) :)
  case setJpegSize =>
    obtain ⟨w, hw, hu⟩ := hu; cases hu
    exact (runSeq_atRest hw (check_atRest _ hs) :)
  case startCapture =>
    obtain ⟨w, hw, hu⟩ := hu; cases hu
    exact moveCap_atRest _ _ (writeReg_atRest hw (check_atRest _ hs))
  case flushFifo =>
    obtain ⟨w, hw, hu⟩ := hu; cases hu
    exact moveCap_atRest _ _ (writeReg_atRest hw (check_atRest _ hs))
  case clearFifoFlag =>
    obtain ⟨w, hw, hu⟩ := hu; cases hu
    exact moveCap_atRest _ _ (writeReg_atRest hw (check_atRest _ hs))
  case captureComplete =>
    obtain ⟨w, hw, hu⟩ := hu; cases hu
    exact moveCap_atRest _ _ (readReg_atRest hw (check_atRest _ hs))
  case readFifoLength =>
    obtain ⟨w, hw, x, hx, y, hy, hu⟩ := hu; cases hu
    exact readReg_atRest hy (readReg_atRest hx (readReg_atRest hw (check_atRest _ hs)))

/-- BURST_OPEN, wherever it is executed, ends with the bus held (R160). -/
theorem execBurstOpen_next {s t : State} (h : execBurstOpen s = .next t) : (∃ e, t = refuse e s) ∨ t.HoldsBus := by
  obtain ⟨e, he⟩ | ⟨d, u, -, -, hu, rfl⟩ := runDriver_next h
  · exact .inl ⟨e, he⟩
  · simp only [Exec.bind_ok_iff, Exec.pure_eq] at hu
    obtain ⟨v, hv, w, hw, hu⟩ := hu
    cases hu
    obtain ⟨hbound, -, rfl⟩ := csLow_next hv
    obtain ⟨-, -, hw⟩ := xfer_next hw
    rw [hw]
    exact .inr ⟨rfl, rfl, rfl, hbound⟩

/-- BURST_NEXT leaves the bus held (R161). -/
theorem execBurstNext_holdsBus {s t : State} (h : execBurstNext s = .next t) (hs : s.HoldsBus) : t.HoldsBus := by
  obtain ⟨e, rfl⟩ | ⟨d, u, -, -, hu, rfl⟩ := runDriver_next h
  · exact hs
  · simp only [Exec.bind_ok_iff, Exec.pure_eq] at hu
    obtain ⟨r, hr, hu⟩ := hu
    cases hu
    obtain ⟨-, -, hr⟩ := xfer_next hr
    rw [hr]
    exact hs

/-- BURST_CLOSE puts the line at rest (R162). -/
theorem execBurstClose_next {s t : State} (h : execBurstClose s = .next t) : (∃ e, t = refuse e s) ∨ t.AtRest := by
  obtain ⟨e, he⟩ | ⟨d, u, -, -, hu, rfl⟩ := runDriver_next h
  · exact .inl ⟨e, he⟩
  · simp only [Exec.bind_ok_iff, Exec.pure_eq] at hu
    obtain ⟨v, hv, hu⟩ := hu
    cases hu
    obtain ⟨-, rfl⟩ := csHigh_next hv
    exact .inr ⟨rfl, rfl, rfl⟩

/-- While a reader is live a command leaves the bus held, or is the BURST_CLOSE that ends the reader (R163). -/
theorem exec_holdsBus {i : Instr} {s t : State} (h : exec i s = .next t) (hs : s.HoldsBus) :
    t.HoldsBus ∨ (i = .burstClose ∧ t.AtRest) := by
  cases i <;> simp only [exec] at h
  case bind =>
    obtain ⟨e, rfl⟩ | ⟨hb, -⟩ := execBind_next h
    · exact .inl hs
    · obtain ⟨-, -, -, hbound⟩ := hs
      nomatch hbound.symm.trans hb
  case status => cases h; exact .inl hs
  case setdly => cases h; exact .inl hs
  case burstNext => exact .inl (execBurstNext_holdsBus h hs)
  case burstClose =>
    obtain ⟨e, rfl⟩ | ht := execBurstClose_next h
    · exact .inl hs
    · exact .inr ⟨rfl, ht⟩
  all_goals exact .inl (runDriver_holdsBus h rfl hs)

/-- A command moves the line between its two conditions only. -/
theorem exec_line {i : Instr} {s t : State} (h : exec i s = .next t) (hs : s.AtRest ∨ s.HoldsBus) :
    t.AtRest ∨ t.HoldsBus := by
  obtain hs | hs := hs
  · by_cases hi : i = .burstOpen
    · subst hi
      obtain ⟨e, rfl⟩ | ht := execBurstOpen_next h
      · exact .inl hs
      · exact .inr ht
    · exact .inl (exec_atRest h hi hs)
  · exact (exec_holdsBus h hs).symm.imp_left And.right

/-- A command ends IDLE (R25). -/
theorem exec_idle {i : Instr} {s t : State} (h : exec i s = .next t) : t.phase = .idle := by
  obtain ⟨e, -, rfl, -⟩ | ⟨u, rfl, -⟩ := exec_ended i s t h <;> rfl

/-- Only RELEASE makes a bound block unbound, and it leaves CAP Uninitialized (R101). -/
theorem exec_unbinds {i : Instr} {s t : State} (h : exec i s = .next t) (ht : t.bound = false) :
    s.bound = false ∨ (i = .release ∧ t.cap = .uninitialized) := by
  obtain ⟨e, -, rfl, -⟩ | ⟨u, rfl, ran⟩ := exec_ended i s t h
  · exact .inl ht
  · obtain ⟨bound, -, kept⟩ := ran.driver
    by_cases hr : i = .release
    · subst hr
      exact .inr ⟨rfl, (ran.cap (mem_allCaps _)).1⟩
    · refine .inl ?_
      have hb : ∀ pin model, i ≠ .bind pin model := by
        rintro pin model rfl
        simp [(bound pin model rfl).1] at ht
      simpa [kept hb hr] using ht

/-- I4's clause on CAP. Of a block that was unbound only STATUS and SETDLY are executed and leave it so (R175). -/
theorem exec_unbound_cap {i : Instr} {s t : State} (h : exec i s = .next t) (hs : s.Inv) (ht : t.bound = false) :
    t.cap = .uninitialized := by
  obtain hu | ⟨-, hcap⟩ := exec_unbinds h ht
  · obtain ⟨-, -, -, hcap⟩ := hs.unbound_clear hu
    cases hn : needsNoDriver i with
    | false =>
      rw [driver_command_unbound i hn s hs.idle hu] at h
      cases h
      exact hcap
    | true =>
      obtain ⟨e, -, rfl, -⟩ | ⟨u, rfl, ran⟩ := exec_ended i s t h
      · exact hcap
      · cases i <;> simp only [needsNoDriver, Bool.false_eq_true] at hn
        case bind => exact (ran.cap (mem_allCaps _)).1
        case status => exact (ran.cap (mem_allCaps _)).1.trans hcap
        case setdly => exact (ran.cap (mem_allCaps _)).1.trans hcap
  · exact hcap

/-- A command keeps the invariant of R26. -/
theorem exec_inv {i : Instr} {s t : State} (h : exec i s = .next t) (hs : s.Inv) : t.Inv := by
  obtain ⟨-, hline, -⟩ := State.inv_iff.1 hs
  exact State.inv_iff.2 ⟨exec_idle h, exec_line h hline, exec_unbound_cap h hs⟩

/-- Settles O44, by the cases of a step; a command keeps the invariant because it moves the line between its two conditions only. -/
theorem stepKeepsTheBoundaryInvariant : Obligations.StepKeepsTheBoundaryInvariant := by
  intro s t hs h
  obtain rfl | ⟨rest, -, rfl⟩ | ⟨w, rest, -, -, ⟨i, hi⟩ | rfl⟩ := step_cases h
  · exact hs
  · exact blockReset_inv _
  · exact exec_inv hi (hs.withInputs rest)
  · exact refuse_inv _ (hs.withInputs rest)

/-! ### The sticky flags (10_state.md R23) -/

/-- A command with a precondition violated has raised S_PRECOND; any other has left it. -/
theorem Ran.sPrecond_kept {i : Instr} {s u : State} (ran : Ran i s u) (hs : s.sPrecond = true) : u.sPrecond = true := by
  by_cases hc : s.cap ∈ legalIn i
  · obtain ⟨-, hp, -⟩ := ran.cap hc
    rw [hp, hs]
  · obtain ⟨-, hp, -⟩ := ran.cap' hc
    exact hp

/-- Settles O48, by the two ways a command ends: a refusal raises S_REFUSED and touches no other flag; an executed command leaves
each flag or raises it. -/
theorem noCommandClearsAStickyFlag : Obligations.NoCommandClearsAStickyFlag := by
  intro i s t h
  obtain ⟨e, -, rfl, -⟩ | ⟨u, rfl, ran⟩ := exec_ended i s t h
  · exact ⟨fun _ => rfl, id, id, id⟩
  · refine ⟨fun hs => ran.sRefused.trans hs, ran.sPrecond_kept, fun hs => ?_, fun hs => ?_⟩
    · exact ran.sSbaddr.elim (fun hk => hk.trans hs) And.right
    · exact ran.sRawmgd.elim (fun hk => hk.trans hs) And.right

/-! ### Block reset (10_state.md R30) -/

theorem step_reset {s : State} {rest : List HostAct} (h : s.inputs = .reset :: rest) :
    step s = .next (blockReset { s with inputs := rest }) := by
  simp only [step, h]

/-- Outside a transaction block reset shows the peripheral nothing (R192). -/
theorem blockReset_periph_of_idle {s : State} (h : s.txn = false) : (blockReset s).periph = s.periph := by
  simp [blockReset, Peripheral.released, h]

/-- Inside one it shows it the rise of chip-select (R191, log entry 15). -/
theorem blockReset_periph_of_txn {s : State} (h : s.txn = true) : (blockReset s).periph = s.periph.csHigh := by
  simp [blockReset, Peripheral.released, h]

/-- Settles O9: the registers by the definition of block reset, the peripheral by whether a transaction was open. -/
theorem blockResetGivesTheResetValues : Obligations.BlockResetGivesTheResetValues := by
  intro s rest h
  exact ⟨_, step_reset h, rfl, rfl, rfl, rfl, rfl, rfl, rfl, rfl, rfl, rfl, rfl, rfl, rfl, rfl, rfl, rfl, rfl,
    fun ht => blockReset_periph_of_idle (s := { s with inputs := rest }) ht,
    fun ht => blockReset_periph_of_txn (s := { s with inputs := rest }) ht⟩

/-- Settles O10, by the definition of the reset state. -/
theorem resetStateHasTheSpecsValues : Obligations.ResetStateHasTheSpecsValues :=
  ⟨rfl, rfl, rfl, rfl, rfl, rfl, rfl, rfl, rfl, rfl, rfl, rfl, rfl, rfl, rfl⟩

/-- Settles O45: the line of the reset state is at rest and CAP is Uninitialized. -/
theorem resetMeetsTheBoundaryInvariant : Obligations.ResetMeetsTheBoundaryInvariant := reset_inv

end Sys2Proof.Machine

namespace Sys2Proof.Machine

/-! ### One step, and what it appends (20_memory.md R50, R60) -/

/-- An IDLE block takes the word on its command port off the port (R60). -/
theorem step_command {s : State} {w : Word} {rest : List HostAct} (hp : s.phase = .idle)
    (hin : s.inputs = .command w :: rest) : step s = takeWord w { s with inputs := rest } := by
  simp [step, hin, State.cmdReady, hp]

theorem takeWord_of_decode {w : Word} {i : Instr} (s : State) (h : decode w = .ok i) : takeWord w s = exec i s := by
  simp only [takeWord, h]

/-- Settles O7: the word is taken, and as it decodes, its command is executed. -/
theorem stepRunsTheDecodedCommand : Obligations.StepRunsTheDecodedCommand := by
  intro s w rest i hp hin hd
  rw [step_command hp hin, takeWord_of_decode _ hd]

/-- Settles O47, by the two ways a command ends: a refusal appends no event, an executed command the events of its operations. -/
theorem commandsOnlyAppendToTheTrace : Obligations.CommandsOnlyAppendToTheTrace := by
  intro i s t h
  obtain ⟨e, -, rfl, -⟩ | ⟨u, rfl, ran⟩ := exec_ended i s t h
  · exact ⟨[], by rw [refuse_trace, List.append_nil]⟩
  · exact ran.trace

/-! ### The double is outside transactions exactly while TXN = 0 (20_memory.md R54)

CS_LOW and CS_HIGH put the double where the block is, whatever was before; every other operation leaves both there. So a register
access ends in step from any state. -/

/-- Being in step is a matter of TXN and of the peripheral alone. -/
theorem State.doubleFollows.congr {s t : State} (hs : s.doubleFollows) (htxn : t.txn = s.txn)
    (hp : t.periph = s.periph) : t.doubleFollows := by
  unfold State.doubleFollows
  rw [htxn, hp]
  exact hs

@[simp] theorem Double.store_mode (P : Params) (i out : Byte) (d : Double) : (d.store P i out).mode = .done := rfl

@[simp] theorem Double.load_mode (P : Params) (i : Byte) (d : Double) : (d.load P i).2.mode = .done := by
  unfold Double.load
  split_ifs <;> rfl

theorem Double.takeCommand_mode_ne_idle (P : Params) (out : Byte) (d : Double) : (d.takeCommand P out).mode ≠ .idle := by
  unfold Double.takeCommand
  split_ifs <;> simp

/-- Inside a transaction no transfer takes the double out of it (R55 to R58). -/
theorem Double.xfer_mode_ne_idle (P : Params) (out : Byte) {d : Double} (h : d.mode ≠ .idle) :
    (d.xfer P out).2.mode ≠ .idle := by
  unfold Double.xfer
  split
  next hm => exact absurd hm h
  next => exact d.takeCommand_mode_ne_idle P out
  next => simp
  next => simp
  next hm => simp [hm]
  next hm => simp [hm]

theorem csLow_follows {s t : State} (h : csLow s = .ok t) : t.doubleFollows := by
  obtain ⟨-, -, rfl⟩ := csLow_next h
  cases s.periph <;> simp [State.doubleFollows, Peripheral.csLow]

theorem csHigh_follows {s t : State} (h : csHigh s = .ok t) : t.doubleFollows := by
  obtain ⟨-, rfl⟩ := csHigh_next h
  cases s.periph <;> simp [State.doubleFollows, Peripheral.csHigh]

theorem oracleAnswer_isOracle (script : List Byte) (n : Nat) :
    ∃ rest, (oracleAnswer script n).2 = .oracle rest (n + 1) := by
  cases script <;> exact ⟨_, rfl⟩

theorem xfer_follows {s : State} {out : Byte} {r : Byte × State} (h : xfer out s = .ok r) (hs : s.doubleFollows) :
    r.2.doubleFollows := by
  obtain ⟨ht, -, hr⟩ := xfer_next h
  rw [hr]
  cases hp : s.periph with
  | oracle script n =>
    obtain ⟨rest, ho⟩ := oracleAnswer_isOracle script n
    simp [State.doubleFollows, Peripheral.xfer, ho]
  | double d =>
    have hm : d.mode ≠ .idle := by simpa [State.doubleFollows, hp, ht] using hs
    simpa [State.doubleFollows, Peripheral.xfer, hp, ht] using Double.xfer_mode_ne_idle s.cfg out hm

theorem delay_follows {s t : State} {ms : Half} (h : delay ms s = .ok t) (hs : s.doubleFollows) : t.doubleFollows := by
  unfold delay at h
  split at h
  · simp at h
  · cases h; exact hs

theorem sbRead_follows {s : State} {a : Half} {r : Byte × State} (h : sbRead a s = .ok r) (hs : s.doubleFollows) :
    r.2.doubleFollows := by
  unfold sbRead at h
  split at h
  · simp at h
  · cases h
    cases hp : s.periph with
    | oracle script n =>
      obtain ⟨rest, ho⟩ := oracleAnswer_isOracle script n
      simp [State.doubleFollows, Peripheral.sbRead, ho]
    | double d => simpa [State.doubleFollows, Peripheral.sbRead, hp] using hs

theorem sbWrite_follows {s t : State} {a : Half} {v : Byte} (h : sbWrite a v s = .ok t) (hs : s.doubleFollows) :
    t.doubleFollows := by
  unfold sbWrite at h
  split at h
  · simp at h
  · cases h
    cases hp : s.periph with
    | oracle script n => simp [State.doubleFollows, Peripheral.sbWrite]
    | double d => simpa [State.doubleFollows, Peripheral.sbWrite, hp] using hs

theorem writeReg_follows {s t : State} {a v : Byte} (h : writeReg a v s = .ok t) : t.doubleFollows := by
  simp only [writeReg, Exec.bind_ok_iff] at h
  obtain ⟨u, -, r, -, q, -, h⟩ := h
  exact csHigh_follows h

theorem readReg_follows {s : State} {a : Byte} {r : Byte × State} (h : readReg a s = .ok r) : r.2.doubleFollows := by
  simp only [readReg, Exec.bind_ok_iff, Exec.pure_eq] at h
  obtain ⟨u, -, p, -, q, -, v, hv, h⟩ := h
  cases h
  exact csHigh_follows hv

theorem modifyReg_follows {s t : State} {a : Byte} {f : Byte → Byte} (h : modifyReg a f s = .ok t) :
    t.doubleFollows := by
  simp only [modifyReg, Exec.bind_ok_iff] at h
  obtain ⟨r, -, h⟩ := h
  exact writeReg_follows h

theorem runStep_follows {s t : State} {v : VendorStep} (h : runStep v s = .ok t) (hs : s.doubleFollows) :
    t.doubleFollows := by
  cases v <;> simp only [runStep] at h
  case sw => exact sbWrite_follows h hs
  case rw => exact writeReg_follows h
  case rs => exact modifyReg_follows h
  case rc => exact modifyReg_follows h
  case dl => exact delay_follows h hs

theorem runSeq_follows {seq : List VendorStep} {s t : State} (h : runSeq seq s = .ok t) (hs : s.doubleFollows) :
    t.doubleFollows := by
  induction seq generalizing s with
  | nil => cases h; exact hs
  | cons v seq ih =>
    unfold runSeq at h
    split at h
    next u hv => exact ih h (runStep_follows hv hs)
    next => simp at h

theorem check_follows {s : State} (l : List CapState) (hs : s.doubleFollows) : (check l s).doubleFollows := by
  unfold check; split <;> exact hs

theorem flagAddr_follows {s : State} (d : Driver) (a : Half) (hs : s.doubleFollows) : (flagAddr d a s).doubleFollows := by
  unfold flagAddr; split <;> exact hs

theorem moveCap_follows {s : State} (ok : Bool) (c : CapState) (hs : s.doubleFollows) : (moveCap ok c s).doubleFollows :=
  hs.congr (moveCap_txn ok c s) (moveCap_periph ok c s)

/-- A driver command keeps the double in step if its body does. -/
theorem runDriver_follows {i : Instr} {s t : State} {body : Driver → State → Exec} (h : runDriver i s body = .next t)
    (hs : s.doubleFollows)
    (hb : ∀ d u, (begin i s).doubleFollows → body d (begin i s) = .ok u → u.doubleFollows) : t.doubleFollows := by
  obtain ⟨e, rfl⟩ | ⟨d, u, -, -, hu, rfl⟩ := runDriver_next h
  · exact hs
  · exact hb d u hs hu

/-- BIND is executed only while BOUND = 0, where no transaction is open, and opens none. -/
theorem execBind_follows {pin model : Byte} {s t : State} (h : execBind pin model s = .next t) (hi : s.Inv)
    (hs : s.doubleFollows) : t.doubleFollows := by
  unfold execBind runBind at h
  split at h
  · split at h
    next => cases h; exact hs
    next hb =>
      obtain ⟨-, htxn, -, -⟩ := hi.unbound_clear (by simpa using hb)
      cases h
      exact hs.congr htxn.symm rfl
  · cases h; exact hs

/-- A command keeps the double in step. Each driver command is followed through the operations its body is made of, from the last
register access on. -/
theorem exec_follows {i : Instr} {s t : State} (h : exec i s = .next t) (hi : s.Inv) (hs : s.doubleFollows) :
    t.doubleFollows := by
  cases i <;> simp only [exec] at h
  case bind => exact execBind_follows h hi hs
  case status => cases h; exact hs
  case setdly => cases h; exact hs
  all_goals
    refine runDriver_follows h hs fun d u hs hu => ?_
    simp only [Exec.bind_ok_iff, Exec.pure_eq] at hu
  case release => cases hu; exact hs
  case writeReg =>
    obtain ⟨w, hw, hu⟩ := hu; cases hu
    exact (writeReg_follows hw :)
  case setBit | clearBit =>
    obtain ⟨w, hw, hu⟩ := hu; cases hu
    exact (modifyReg_follows hw :)
  case readReg | getBit =>
    obtain ⟨w, hw, hu⟩ := hu; cases hu
    exact readReg_follows hw
  case sensorRd a =>
    obtain ⟨w, hw, hu⟩ := hu; cases hu
    exact sbRead_follows hw (flagAddr_follows d a hs)
  case sensorWr a _ =>
    obtain ⟨w, hw, hu⟩ := hu; cases hu
    exact (sbWrite_follows hw (flagAddr_follows d a (check_follows _ hs)) :)
  case getChipIdHigh | getChipIdLow =>
    obtain ⟨w, hw, hu⟩ := hu; cases hu
    exact sbRead_follows hw hs
  case getChipId =>
    obtain ⟨w, hw, x, hx, hu⟩ := hu; cases hu
    exact sbRead_follows hx (sbRead_follows hw hs)
  case resetCpld =>
    obtain ⟨w, hw, x, hx, y, hy, z, hz, hu⟩ := hu; cases hu
    exact (delay_follows hz (writeReg_follows hy) :)
  case initCam =>
    obtain ⟨w, hw, hu⟩ := hu; cases hu
    exact moveCap_follows _ _ (runSeq_follows hw (check_follows _ hs))
  case setFormat | setJpegSize =>
    obtain ⟨w, hw, hu⟩ := hu; cases hu
    exact (runSeq_follows hw (check_follows _ hs) :)
  case startCapture | flushFifo | clearFifoFlag =>
    obtain ⟨w, hw, hu⟩ := hu; cases hu
    exact moveCap_follows _ _ (writeReg_follows hw)
  case captureComplete =>
    obtain ⟨w, hw, hu⟩ := hu; cases hu
    exact moveCap_follows _ _ (readReg_follows hw)
  case readFifoLength =>
    obtain ⟨w, hw, x, hx, y, hy, hu⟩ := hu; cases hu
    exact readReg_follows hy
  case burstOpen =>
    obtain ⟨w, hw, x, hx, hu⟩ := hu; cases hu
    exact xfer_follows hx (csLow_follows hw)
  case burstNext =>
    obtain ⟨w, hw, hu⟩ := hu; cases hu
    exact xfer_follows hw hs
  case burstClose =>
    obtain ⟨w, hw, hu⟩ := hu; cases hu
    exact (csHigh_follows hw :)

/-- Block reset shows a double inside a transaction the rise of chip-select (log entry 15), so it is outside after it. -/
theorem blockReset_follows {s : State} (hs : s.doubleFollows) : (blockReset s).doubleFollows := by
  cases ht : s.txn with
  | false => exact hs.congr ht.symm (blockReset_periph_of_idle ht)
  | true =>
    unfold State.doubleFollows
    rw [blockReset_periph_of_txn ht]
    cases s.periph <;> simp [Peripheral.csHigh, blockReset]

/-- Settles O53, by the cases of a step: the block holds, is reset, or takes a word, which runs or is refused. -/
theorem stepKeepsTheDoubleInStep : Obligations.StepKeepsTheDoubleInStep := by
  intro s t hi hs h
  obtain rfl | ⟨rest, -, rfl⟩ | ⟨w, rest, -, -, ⟨i, hx⟩ | rfl⟩ := step_cases h
  · exact hs
  · exact blockReset_follows (s := { s with inputs := rest }) hs
  · exact exec_follows hx (hi.withInputs rest) hs
  · exact hs

end Sys2Proof.Machine

namespace Sys2Proof.Machine

/-! ### The double streams its frame (20_memory.md R58) -/

/-- Inside a burst `n` dummy transfers return the next `n` bytes of the frame, from the read pointer on. -/
theorem Double.streams_bursting (P : Params) (n : Nat) (e : Double) (hm : e.mode = .bursting)
    (hn : e.rp + n ≤ e.fifo.length) : ((Peripheral.double e).streams P n).1 = (e.fifo.drop e.rp).take n := by
  induction n generalizing e with
  | zero => simp [Peripheral.streams]
  | succ n ih =>
    have hlt : e.rp < e.fifo.length := by omega
    have ih := ih { e with rp := e.rp + 1 } hm (by dsimp only; omega)
    rw [List.drop_eq_getElem_cons hlt, List.take_succ_cons, ← ih]
    simp [Peripheral.streams, Peripheral.xfer, Double.xfer, hm, hlt]

/-- A burst command puts the double in its burst, at byte 0 (R55, R77). -/
theorem Double.csLow_xfer_burstCmd {P : Params} (h : P.burstCmdIsRead = true) (e : Double) :
    ((Peripheral.double e).csLow.xfer P P.BURST_CMD).2 = .double { e with rp := 0, mode := .bursting } := by
  have hr : P.BURST_CMD &&& P.WRITE_BIT = 0#8 := by simpa [Params.burstCmdIsRead] using h
  simp [Peripheral.csLow, Peripheral.xfer, Double.xfer, Double.takeCommand, hr]

/-- Settles O59: the burst command sets the read pointer to 0, and the dummy transfers move it one byte on each. -/
theorem doubleStreamsTheFrameInOrder : Obligations.DoubleStreamsTheFrameInOrder := by
  intro P e h n hn
  rw [Double.csLow_xfer_burstCmd h, Double.streams_bursting P n _ rfl (by simpa using hn), List.drop_zero]

/-! ### Register commands where they run (42_register_access.md R120 to R124)

Of a bound block with no live reader, what the peripheral hears of a register command and what the command returns. -/

@[simp] theorem flagManaged_driver (a : Byte) (s : State) : (flagManaged a s).driver = s.driver := by
  unfold flagManaged; split <;> rfl
@[simp] theorem flagManaged_txn (a : Byte) (s : State) : (flagManaged a s).txn = s.txn := by
  unfold flagManaged; split <;> rfl
@[simp] theorem flagAddr_txn (d : Driver) (a : Half) (s : State) : (flagAddr d a s).txn = s.txn := by
  unfold flagAddr; split <;> rfl
@[simp] theorem check_txn (l : List CapState) (s : State) : (check l s).txn = s.txn := by
  unfold check; split <;> rfl

/-- A command that neither binds, releases nor opens a burst leaves the block ready for the next. -/
theorem exec_ready {i : Instr} {s t : State} {d : Driver} (h : exec i s = .next t) (hs : s.Ready d)
    (hb : ∀ pin model, i ≠ .bind pin model) (hr : i ≠ .release) (ho : i ≠ .burstOpen) : t.Ready d := by
  refine ⟨exec_inv h hs.inv, ?_, (exec_atRest h ho ⟨hs.cs, hs.txn, hs.noBurst⟩).noBurst⟩
  obtain ⟨e, -, rfl, -⟩ | ⟨u, rfl, ran⟩ := exec_ended i s t h
  · exact hs.driver
  · obtain ⟨-, -, kept⟩ := ran.driver
    exact (kept hb hr).trans hs.driver

theorem runAll_pair {i j : Instr} {s t u : State} (hi : exec i s = .next t) (hj : exec j t = .next u) :
    runAll [i, j] s = .next u := by
  simp only [runAll, hi, hj]

theorem afterModify_periph (a : Byte) (f : Byte → Byte) (s : State) :
    (afterModify a f s).periph = (vendorModify s.cfg a f s.periph).periph := rfl

section
variable {s : State} {d : Driver}

/-- A command that reads one register and answers `g` of the byte read. -/
theorem runDriver_readReg_ready {i : Instr} (hs : s.Ready d) (he : enumOk i s.cfg d.model = true)
    (hn : needsReader i = false) (a : Byte) (g : Byte → Word) :
    ∃ t, (runDriver i s fun _ s => do
        let (r, s) ← readReg a s
        return { s with result := g r }) = .next t ∧ t.result = g (s.periph.holds s.cfg a) := by
  have run := readReg_ok (s := begin i s) a (by simp [hs.driver]) (by simp [hs.txn])
  exact ⟨_, by rw [runDriver_ready hs he hn, run]; rfl, rfl⟩

/-- A command that modifies one register. -/
theorem runDriver_modifyReg_ready {i : Instr} (hs : s.Ready d) (he : enumOk i s.cfg d.model = true)
    (hn : needsReader i = false) (a : Byte) (f : Byte → Byte) :
    ∃ t, (runDriver i s fun _ s => do
        let s ← modifyReg a f (flagManaged a s)
        return { s with result := 0#32 }) = .next t ∧ t.periph = (vendorModify s.cfg a f s.periph).periph := by
  have run := modifyReg_ok (s := flagManaged a (begin i s)) a f (by simp [hs.driver]) (by simp [hs.txn])
  refine ⟨_, by rw [runDriver_ready hs he hn, run]; rfl, ?_⟩
  simp [afterModify_periph, flagManaged_periph, flagManaged_cfg]

theorem exec_readReg_ready (hs : s.Ready d) (a : Byte) :
    ∃ t, exec (.readReg a) s = .next t ∧ t.result = zext32 (s.periph.holds s.cfg a) :=
  runDriver_readReg_ready hs rfl rfl a zext32

theorem exec_getBit_ready (hs : s.Ready d) (a m : Byte) :
    ∃ t, exec (.getBit a m) s = .next t ∧ t.result = boolWord (anyBit (s.periph.holds s.cfg a) m) :=
  runDriver_readReg_ready hs rfl rfl a fun r => boolWord (anyBit r m)

theorem exec_setBit_ready (hs : s.Ready d) (a m : Byte) :
    ∃ t, exec (.setBit a m) s = .next t ∧ t.periph = (vendorModify s.cfg a (orMask · m) s.periph).periph :=
  runDriver_modifyReg_ready hs rfl rfl a (orMask · m)

theorem exec_clearBit_ready (hs : s.Ready d) (a m : Byte) :
    ∃ t, exec (.clearBit a m) s = .next t ∧ t.periph = (vendorModify s.cfg a (andNotMask · m) s.periph).periph :=
  runDriver_modifyReg_ready hs rfl rfl a (andNotMask · m)

theorem exec_writeReg_ready (hs : s.Ready d) (a v : Byte) :
    ∃ t, exec (.writeReg a v) s = .next t ∧ t.periph = (s.periph.hears s.cfg (addrW s.cfg a) v).after := by
  have run := writeReg_ok (s := flagManaged a (begin (.writeReg a v) s)) a v (by simp [hs.driver]) (by simp [hs.txn])
  refine ⟨_, by rw [exec, execWriteReg, runDriver_ready hs rfl rfl, run]; rfl, ?_⟩
  simp [flagManaged_periph, flagManaged_cfg]

theorem exec_sensorWr_ready (hs : s.Ready d) (a : Half) (v : Byte) :
    ∃ t, exec (.sensorWr a v) s = .next t ∧ t.periph = s.periph.sbWrite a v := by
  have run := sbWrite_ok (s := flagAddr d a (check sensorWrLegal (begin (.sensorWr a v) s))) a v (by simp [hs.txn])
  refine ⟨_, by rw [exec, execSensorWr, runDriver_ready hs rfl rfl, run]; rfl, ?_⟩
  simp [flagAddr_periph, check_periph]

/-- SET_BIT (CLEAR_BIT) and then GET_BIT: what the register holds after the one, under the mask. -/
theorem runAll_modify_getBit {i : Instr} {a m : Byte} {f : Byte → Byte} (hs : s.Ready d)
    (h : ∃ t, exec i s = .next t ∧ t.periph = (vendorModify s.cfg a f s.periph).periph)
    (hb : ∀ pin model, i ≠ .bind pin model) (hr : i ≠ .release) (ho : i ≠ .burstOpen) :
    ∃ t, runAll [i, .getBit a m] s = .next t ∧
      t.result = boolWord (anyBit ((vendorModify s.cfg a f s.periph).periph.holds s.cfg a) m) := by
  obtain ⟨t, ht, hp⟩ := h
  obtain ⟨u, hu, hres⟩ := exec_getBit_ready (exec_ready ht hs hb hr ho) a m
  exact ⟨u, runAll_pair ht hu, by rw [hres, (exec_ended _ _ _ ht).cfg, hp]⟩

end

/-! ### The laws of the double (20_memory.md R59) -/

/-- L-RT of the double: a plain register is storage (R56, R57). -/
theorem Double.roundTrips_plain {P : Params} {e : Double} {a : Byte} (hw : e.reg.wf) (h1 : P.oneWriteBit = true)
    (ha : plainRegister P a = true) (v : Byte) : (Peripheral.double e).roundTrips P a v := by
  obtain ⟨f, hf, hreg, -⟩ := Double.write_hears h1 e a v
  unfold Peripheral.roundTrips Peripheral.holds
  rw [hf, Double.read_plain f a _ ha, hreg, Memory.read_write _ _ _ _ hw, if_pos rfl]

/-- After the read-modify-write of a plain register the double holds there what it held, modified. -/
theorem Double.holds_vendorModify_plain {P : Params} {e : Double} {a : Byte} (hw : e.reg.wf) (h1 : P.oneWriteBit = true)
    (ha : plainRegister P a = true) (f : Byte → Byte) :
    (vendorModify P a f (.double e)).periph.holds P a = f ((Peripheral.double e).holds P a) := by
  obtain ⟨g, hg, hreg, -⟩ := Double.read_hears e (addrR P a) P.DUMMY (addrR_and_writeBit P a)
  have law := Double.roundTrips_plain (hreg ▸ hw) h1 ha (f ((Peripheral.double e).holds P a))
  rw [← hg] at law
  exact law

theorem boolWord_anyBit_orMask (r m : Byte) : boolWord (anyBit (orMask r m) m) = if m = 0#8 then 0#32 else 1#32 := by
  by_cases hm : m = 0#8 <;> simp [anyBit, orMask_and, boolWord, hm]

theorem boolWord_anyBit_andNotMask (r m : Byte) : boolWord (anyBit (andNotMask r m) m) = 0#32 := by
  simp [anyBit, andNotMask_and, boolWord]

/-- Settles O56: WRITE_REG is one register write, READ_REG one register read, and the double obeys L-RT. -/
theorem doubleReadsBackWhatWasWritten : Obligations.DoubleReadsBackWhatWasWritten := by
  intro s d e a v hs he hw h1 ha
  obtain ⟨t, ht, hp⟩ := exec_writeReg_ready hs a v
  obtain ⟨u, hu, hr⟩ := exec_readReg_ready (exec_ready ht hs (by simp) (by simp) (by simp)) a
  refine ⟨u, runAll_pair ht hu, ?_⟩
  rw [hr, (exec_ended _ _ _ ht).cfg, hp, he]
  exact congrArg zext32 (Double.roundTrips_plain hw h1 ha v)

/-- Settles O57: GET_BIT reads the byte SET_BIT (CLEAR_BIT) has modified. -/
theorem doubleObeysTheBitLaws : Obligations.DoubleObeysTheBitLaws := by
  intro s d e a m hs he hw h1 ha
  constructor
  · obtain ⟨t, ht, hr⟩ := runAll_modify_getBit hs (exec_setBit_ready hs a m) (by simp) (by simp) (by simp)
    exact ⟨t, ht, by rw [hr, he, Double.holds_vendorModify_plain hw h1 ha, boolWord_anyBit_orMask]⟩
  · obtain ⟨t, ht, hr⟩ := runAll_modify_getBit hs (exec_clearBit_ready hs a m) (by simp) (by simp) (by simp)
    exact ⟨t, ht, by rw [hr, he, Double.holds_vendorModify_plain hw h1 ha, boolWord_anyBit_andNotMask]⟩

/-! ### What the double stores (20_memory.md R56 to R59) -/

/-- The registers a peripheral is known to hold: the double's control and sensor registers; of an oracle none are known. -/
def Peripheral.memories (p : Peripheral) : Option (Memory × Memory) :=
  match p with
  | .oracle _ _ => none
  | .double e => some (e.reg, e.sreg)

@[simp] theorem Peripheral.memories_oracle (script : List Byte) (n : Nat) : (oracle script n).memories = none := rfl

theorem Peripheral.memories_eq_some {p : Peripheral} {reg sreg : Memory} :
    p.memories = some (reg, sreg) ↔ ∃ f, p = .double f ∧ f.reg = reg ∧ f.sreg = sreg := by
  cases p <;> simp [Peripheral.memories]

@[simp] theorem oracleAnswer_memories (script : List Byte) (n : Nat) : (oracleAnswer script n).2.memories = none := by
  obtain ⟨rest, ho⟩ := oracleAnswer_isOracle script n
  rw [ho, Peripheral.memories_oracle]

@[simp] theorem Peripheral.csLow_memories (p : Peripheral) : p.csLow.memories = p.memories := by cases p <;> rfl
@[simp] theorem Peripheral.csHigh_memories (p : Peripheral) : p.csHigh.memories = p.memories := by cases p <;> rfl

@[simp] theorem Peripheral.sbRead_memories (a : Half) (p : Peripheral) : (p.sbRead a).2.memories = p.memories := by
  cases p with
  | oracle script n => exact oracleAnswer_memories script n
  | double e => rfl

/-- The first byte of a transaction stores nothing, whatever it is (R55). -/
theorem Peripheral.csLow_xfer_memories (P : Params) (out : Byte) (p : Peripheral) :
    (p.csLow.xfer P out).2.memories = p.memories := by
  cases p with
  | oracle script n => exact oracleAnswer_memories script n
  | double e =>
    simp only [Peripheral.csLow, Peripheral.xfer, Double.xfer, Double.takeCommand]
    split_ifs <;> rfl

/-- A transfer inside the double's burst stores nothing (R58). -/
theorem Double.bursting_xfer_memories {e : Double} (h : e.mode = .bursting) (P : Params) (out : Byte) :
    ((Peripheral.double e).xfer P out).2.memories = (Peripheral.double e).memories := by
  simp [Peripheral.xfer, Double.xfer, h, Peripheral.memories]

/-- A register read stores nothing (R57). -/
theorem Peripheral.read_hears_memories {P : Params} {a : Byte} (ha : a &&& P.WRITE_BIT = 0#8) (o : Byte)
    (p : Peripheral) : (p.hears P a o).after.memories = p.memories := by
  cases p with
  | oracle script n =>
    obtain ⟨rest, ho⟩ := oracleAnswer_isOracle script n
    simp [Peripheral.hears, Peripheral.csLow, Peripheral.xfer, ho]
  | double e => exact Peripheral.memories_eq_some.2 (Double.read_hears e a o ha)

theorem readReg_memories {s : State} {a : Byte} {r : Byte × State} (h : readReg a s = .ok r) :
    r.2.periph.memories = s.periph.memories := by
  obtain ⟨hb, ht⟩ := readReg_next h
  rw [readReg_ok a hb ht] at h
  cases h
  exact Peripheral.read_hears_memories (addrR_and_writeBit s.cfg a) _ _

theorem sbRead_memories {s : State} {a : Half} {r : Byte × State} (h : sbRead a s = .ok r) :
    r.2.periph.memories = s.periph.memories := by
  unfold sbRead at h
  split at h
  · simp at h
  · cases h; exact Peripheral.sbRead_memories a _

/-- A driver command stores nothing if its body stores nothing. -/
theorem runDriver_memories {i : Instr} {s t : State} {body : Driver → State → Exec} (h : runDriver i s body = .next t)
    (hb : ∀ d u, body d (begin i s) = .ok u → u.periph.memories = (begin i s).periph.memories) :
    t.periph.memories = s.periph.memories := by
  obtain ⟨e, rfl⟩ | ⟨d, u, -, -, hu, rfl⟩ := runDriver_next h
  · rfl
  · exact hb d u hu

/-- The commands outside a live reader that the memory frame of the double names: they at most read the peripheral. -/
def storesNothing (i : Instr) : Bool :=
  match i with
  | .release | .status | .readReg _ | .getBit _ _ | .sensorRd _ | .getChipIdHigh | .getChipIdLow | .getChipId
  | .captureComplete | .readFifoLength | .burstOpen => true
  | .bind _ _ | .setdly _ | .writeReg _ _ | .setBit _ _ | .clearBit _ _ | .sensorWr _ _ | .resetCpld | .initCam | .setFormat _
  | .setJpegSize _ | .startCapture | .flushFifo | .clearFifoFlag | .burstNext | .burstClose => false

/-- Such a command stores nothing, refused or executed. -/
theorem exec_memories {i : Instr} {s t : State} (h : exec i s = .next t) (hi : storesNothing i = true) :
    t.periph.memories = s.periph.memories := by
  cases i <;> simp only [storesNothing, Bool.false_eq_true] at hi <;> simp only [exec] at h
  case status => cases h; rfl
  all_goals
    refine runDriver_memories h fun d u hu => ?_
    simp only [Exec.bind_ok_iff, Exec.pure_eq] at hu
  case release => cases hu; rfl
  case readReg | getBit =>
    obtain ⟨w, hw, hu⟩ := hu; cases hu
    exact readReg_memories hw
  case sensorRd a =>
    obtain ⟨w, hw, hu⟩ := hu; cases hu
    exact (sbRead_memories hw).trans (by rw [flagAddr_periph])
  case getChipIdHigh | getChipIdLow =>
    obtain ⟨w, hw, hu⟩ := hu; cases hu
    exact sbRead_memories hw
  case getChipId =>
    obtain ⟨w, hw, x, hx, hu⟩ := hu; cases hu
    exact (sbRead_memories hx).trans (sbRead_memories hw)
  case captureComplete =>
    obtain ⟨w, hw, hu⟩ := hu; cases hu
    simp only [moveCap_periph]
    exact (readReg_memories hw).trans (by rw [check_periph])
  case readFifoLength =>
    obtain ⟨w, hw, x, hx, y, hy, hu⟩ := hu; cases hu
    exact (readReg_memories hy).trans ((readReg_memories hx).trans ((readReg_memories hw).trans (by rw [check_periph])))
  case burstOpen =>
    obtain ⟨w, hw, x, hx, hu⟩ := hu; cases hu
    obtain ⟨-, -, rfl⟩ := csLow_next hw
    obtain ⟨-, -, hx⟩ := xfer_next hx
    rw [hx]
    exact (Peripheral.csLow_xfer_memories _ _ _).trans (by rw [check_periph])

/-- BURST_NEXT stores nothing in a double that is in its burst while the block is. -/
theorem execBurstNext_memories {s t : State} {e : Double} (h : execBurstNext s = .next t) (he : s.periph = .double e)
    (hm : s.burst = true → e.mode = .bursting) : t.periph.memories = s.periph.memories := by
  obtain ⟨_, rfl⟩ | ⟨d, u, -, hb, hu, rfl⟩ := runDriver_next h
  · rfl
  · simp only [Exec.bind_ok_iff, Exec.pure_eq] at hu
    obtain ⟨w, hw, hu⟩ := hu; cases hu
    obtain ⟨-, -, hw⟩ := xfer_next hw
    rw [hw]
    simpa [he] using Double.bursting_xfer_memories (hm hb) s.cfg s.cfg.DUMMY

theorem execBurstClose_memories {s t : State} (h : execBurstClose s = .next t) :
    t.periph.memories = s.periph.memories := by
  refine runDriver_memories h fun d u hu => ?_
  simp only [Exec.bind_ok_iff, Exec.pure_eq] at hu
  obtain ⟨w, hw, hu⟩ := hu; cases hu
  obtain ⟨-, rfl⟩ := csHigh_next hw
  exact Peripheral.csHigh_memories _

/-- Settles O55: the two writing commands by what the double stores of a register write and of a sensor write, the others because
the operations they are made of store nothing. -/
theorem doubleStoresOnlyTheByteWritten : Obligations.DoubleStoresOnlyTheByteWritten := by
  intro s t d e hi hd he hreg hsreg h1 _
  have held : t.periph.memories = s.periph.memories → ∃ f, t.periph = .double f ∧ f.reg = e.reg ∧ f.sreg = e.sreg := by
    intro h
    rw [he] at h
    exact Peripheral.memories_eq_some.1 h
  refine ⟨fun a v hb h => ?_, fun a v hb h => ?_, fun i hl h => ?_, fun hm i hl h => ?_⟩
  · obtain ⟨u, hu, hp⟩ := exec_writeReg_ready ⟨hi, hd, hb⟩ a v
    obtain ⟨f, hf, hfr, hfs⟩ := Double.write_hears h1 e a v
    cases hu.symm.trans h
    refine ⟨f, by rw [hp, he]; exact hf, hfs, fun k => ?_⟩
    rw [hfr, Memory.read_write _ _ _ _ hreg]
    rfl
  · obtain ⟨u, hu, hp⟩ := exec_sensorWr_ready ⟨hi, hd, hb⟩ a v
    cases hu.symm.trans h
    exact ⟨{ e with sreg := e.sreg.write a.toNat v }, by rw [hp, he]; rfl, rfl, fun k => Memory.read_write _ _ _ _ hsreg⟩
  · refine held (exec_memories h ?_)
    obtain ⟨a, rfl⟩ | ⟨a, m, rfl⟩ | ⟨a, rfl⟩ | hl := hl
    · rfl
    · rfl
    · rfl
    · exact (by decide : ∀ j ∈ [Instr.release, .status, .getChipIdHigh, .getChipIdLow, .getChipId, .captureComplete,
        .readFifoLength, .burstOpen], storesNothing j = true) i hl
  · simp only [List.mem_cons, List.not_mem_nil, or_false] at hl
    obtain rfl | rfl := hl
    · exact held (execBurstNext_memories h he hm)
    · exact held (execBurstClose_memories h)

end Sys2Proof.Machine

namespace Sys2Proof

/-! ### The command word (30_encoding.md R70 to R74)

The opcode of a word fixes the command up to its operands, and these stand in the word's fields: `Instr.withFieldsOf` reads them
there. Decoding is that reading, done when the unused fields are zero; encoding is its inverse. -/

open Laws.EncodingRow (fieldOp_encode)

/-- The command with `i`'s opcode whose operands are what the fields of `w` hold (R71, R72). -/
def Instr.withFieldsOf (w : Word) (i : Instr) : Instr :=
  match i with
  | .bind _ _ => .bind (field1 w) (field0 w)
  | .setdly _ => .setdly (pairOf (field1 w) (field0 w))
  | .writeReg _ _ => .writeReg (field1 w) (field0 w)
  | .readReg _ => .readReg (field1 w)
  | .setBit _ _ => .setBit (field1 w) (field0 w)
  | .clearBit _ _ => .clearBit (field1 w) (field0 w)
  | .getBit _ _ => .getBit (field1 w) (field0 w)
  | .sensorRd _ => .sensorRd (pairOf (field2 w) (field1 w))
  | .sensorWr _ _ => .sensorWr (pairOf (field2 w) (field1 w)) (field0 w)
  | .setFormat _ => .setFormat (field0 w)
  | .setJpegSize _ => .setJpegSize (field0 w)
  | i => i

@[simp] theorem row_withFieldsOf (w : Word) (i : Instr) : (i.withFieldsOf w).row = i.row := by cases i <;> rfl

/-- An encoding holds the operands of its command. -/
theorem withFieldsOf_encode (i : Instr) : i.withFieldsOf (encode i) = i := by
  cases i <;> simp [Instr.withFieldsOf, encode]

/-- An encoding has zero in every field its format does not use (R70). -/
theorem unusedZero_encode (i : Instr) : i.row.format.unusedZero (encode i) = true := by
  cases i <;> simp [Instr.row, Format.unusedZero, encode]

/-- A word with a command's opcode and its unused fields zero is the encoding of the operands it holds. -/
theorem encode_withFieldsOf {w : Word} {i : Instr} (hop : fieldOp w = i.row.op)
    (hz : i.row.format.unusedZero w = true) : encode (i.withFieldsOf w) = w := by
  cases i <;> simp only [Instr.row, Format.unusedZero, Bool.and_eq_true, beq_iff_eq] at hop hz <;>
    apply word_ext <;> simp [Instr.withFieldsOf, encode, hop, hz]

theorem formed_of_unusedZero {w : Word} {i : Instr} (h : i.row.format.unusedZero w = true) : formed w i = .ok i :=
  if_pos h

theorem formed_eq_ok_iff {w : Word} {i j : Instr} :
    formed w j = .ok i ↔ j.row.format.unusedZero w = true ∧ j = i := by
  unfold formed
  split <;> simp [*]

/-- "The opcode alone selects the command and its format" (R70). -/
theorem decode_of_op {w : Word} {i : Instr} (h : fieldOp w = i.row.op) : decode w = formed w (i.withFieldsOf w) := by
  unfold decode
  rw [h]
  cases i <;> rfl

/-- A word decodes to a command exactly when it has the command's opcode, zero in the unused fields, and the command's operands in
the others. -/
theorem decode_eq_ok_iff {w : Word} {i : Instr} :
    decode w = .ok i ↔ fieldOp w = i.row.op ∧ i.row.format.unusedZero w = true ∧ i.withFieldsOf w = i := by
  constructor
  · intro h
    unfold decode at h
    split at h
    case h_27 => cases h
    all_goals
      next hop =>
        obtain ⟨hz, rfl⟩ := formed_eq_ok_iff.1 h
        exact ⟨BitVec.eq_of_toNat_eq hop, hz, rfl⟩
  · rintro ⟨hop, hz, hi⟩
    rw [decode_of_op hop, hi, formed_of_unusedZero hz]

/-- Settles O1: an encoding has its command's opcode, unused fields zero, and holds its operands. -/
theorem decodeUndoesEncode : Obligations.DecodeUndoesEncode := fun i =>
  decode_eq_ok_iff.2 ⟨fieldOp_encode i, unusedZero_encode i, withFieldsOf_encode i⟩

/-- Settles O2: what a word decodes to is read from its fields, and encoding that gives the word back. -/
theorem decodedWordIsTheCommandsEncoding : Obligations.DecodedWordIsTheCommandsEncoding := by
  intro w i h
  obtain ⟨hop, hz, hi⟩ := decode_eq_ok_iff.1 h
  rw [← hi, encode_withFieldsOf hop hz]

/-- Settles O4, by running the decoder on each word. -/
theorem writtenOutWordsDecode : Obligations.WrittenOutWordsDecode := ⟨rfl, rfl, rfl, rfl, rfl, rfl, rfl, rfl⟩

/-! ### Words that match no row (R74) -/

/-- One command of each row of the opcode map, in the map's order. -/
def oneOfEachRow : List Instr :=
  [.bind 0 0, .release, .status, .setdly 0, .writeReg 0 0, .readReg 0, .setBit 0 0, .clearBit 0 0, .getBit 0 0, .sensorRd 0,
   .sensorWr 0 0, .getChipIdHigh, .getChipIdLow, .getChipId, .resetCpld, .initCam, .setFormat 0, .setJpegSize 0, .startCapture,
   .captureComplete, .readFifoLength, .flushFifo, .clearFifoFlag, .burstOpen, .burstNext, .burstClose]

theorem opcodeMap_eq_map_row : opcodeMap = oneOfEachRow.map Instr.row := rfl

/-- Every row of the map is a command's. -/
theorem exists_row_of_mem {r : OpcodeRow} (h : r ∈ opcodeMap) : ∃ i : Instr, i.row = r := by
  rw [opcodeMap_eq_map_row] at h
  obtain ⟨i, -, hi⟩ := List.mem_map.1 h
  exact ⟨i, hi⟩

/-- Two words are equal exactly when their four fields are (R70). -/
theorem word_eq_iff {v w : Word} :
    v = w ↔ fieldOp v = fieldOp w ∧ field2 v = field2 w ∧ field1 v = field1 w ∧ field0 v = field0 w :=
  ⟨fun h => h ▸ ⟨rfl, rfl, rfl, rfl⟩, fun ⟨h3, h2, h1, h0⟩ => word_ext v w h3 h2 h1 h0⟩

/-- To match a row under its mask is to have its opcode and zero in every field its format does not use (R71). -/
theorem matches_row_iff {w : Word} {r : OpcodeRow} :
    w &&& r.format.mask = r.pattern ↔ fieldOp w = r.op ∧ r.format.unusedZero w = true := by
  rw [word_eq_iff, Format.mask_eq]
  cases hf : r.format <;> simp [Format.maskBytes, OpcodeRow.pattern, Format.unusedZero, and_assoc]

/-- Settles O3: a word that matches the row of a command decodes to it, with the operands the word holds; a word that decodes is an
encoding, and so matches the row of its command. -/
theorem decoderRejectsExactlyTheUnlistedWords : Obligations.DecoderRejectsExactlyTheUnlistedWords := by
  intro w
  constructor
  · rintro ⟨e, he⟩ r hr hm
    obtain ⟨i, rfl⟩ := exists_row_of_mem hr
    obtain ⟨hop, hz⟩ := matches_row_iff.1 hm
    rw [decode_of_op hop, formed_of_unusedZero (by rwa [row_withFieldsOf])] at he
    cases he
  · intro h
    cases hd : decode w with
    | error e => exact ⟨e, rfl⟩
    | ok i =>
      obtain ⟨hmem, hmatch⟩ := encode_matches_row i
      rw [decodedWordIsTheCommandsEncoding w i hd] at hmatch
      exact absurd hmatch (h _ hmem)

end Sys2Proof

namespace Sys2Proof.Machine

theorem takeWord_of_error {w : Word} {e : DecodeError} (s : State) (h : decode w = .error e) :
    takeWord w s = refused .illegal s := by
  simp only [takeWord, h]

/-- Settles O8: the decoder rejects a word that matches no row, and a rejected word is refused. No row has the opcode 0x00 or
0xFF. -/
theorem illegalWordsAreRefused : Obligations.IllegalWordsAreRefused := by
  refine ⟨fun s w rest hp hin hw => ?_, by decide, by decide⟩
  obtain ⟨e, he⟩ := (decoderRejectsExactlyTheUnlistedWords w).2 hw
  rw [step_command hp hin, takeWord_of_error _ he]
  exact congrArg Host.Outcome.next (refuse_eq_turnedAway hp)

/-! ### Enumerated operands (R75) -/

theorem runBind_badModel {i : Instr} {model : Byte} {s : State} {body : State → Exec}
    (h : s.cfg.modelValid model = false) : runBind i model s body = refused .illegal s := by
  simp [runBind, h]

/-- Settles O13: the three refusals by the admission of each command; no other command ends with `E_ILLEGAL`, because a refusal
with it is of an enumerated operand and an executed command has no refusal code. -/
theorem enumeratedOperandsAreChecked : Obligations.EnumeratedOperandsAreChecked := by
  refine ⟨fun s pin model hp hm => ?_, fun s d fmt hp hd hf => ?_, fun s d size hp hd hz => ?_,
    fun i s t hbind hformat hsize h => ?_⟩
  · simp only [exec, execBind, runBind_badModel hm, refused, refuse_eq_turnedAway hp]
  · simp only [exec, execSetFormat, runDriver_badEnum (i := .setFormat fmt) hd hf, refused, refuse_eq_turnedAway hp]
  · simp only [exec, execSetJpegSize, runDriver_badEnum (i := .setJpegSize size) hd hz, refused, refuse_eq_turnedAway hp]
  · obtain ⟨e, -, rfl, henum⟩ | ⟨u, rfl, ran⟩ := exec_ended i s t h
    · rintro rfl
      obtain ⟨pin, model, hi⟩ | ⟨f, hi⟩ | ⟨z, hi⟩ := henum rfl
      · exact hbind pin model hi
      · exact hformat f hi
      · exact hsize z hi
    · intro he
      exact ran.err (show u.err ∈ refusalCodes from he ▸ by decide)

/-! ### The model of a bound driver (R75) -/

/-- Whether the model is known is a matter of the driver and of the table alone. -/
theorem State.modelKnown.congr {s t : State} (hs : s.modelKnown) (hd : t.driver = s.driver) (hc : t.cfg = s.cfg) :
    t.modelKnown := by
  intro d h
  rw [hc]
  exact hs d (hd ▸ h)

/-- An unbound block has no model to know. -/
theorem State.modelKnown_of_none {s : State} (h : s.driver = none) : s.modelKnown := fun d hd => by simp [h] at hd

/-- An executed command keeps the model known: only BIND makes a driver, and its model is valid. -/
theorem Ran.modelKnown {i : Instr} {s u : State} (ran : Ran i s u) (hs : s.modelKnown) : u.modelKnown := by
  obtain ⟨bound, released, kept⟩ := ran.driver
  by_cases hb : ∃ pin model, i = .bind pin model
  · obtain ⟨pin, model, rfl⟩ := hb
    obtain ⟨hu, hm⟩ := bound pin model rfl
    intro d hd
    cases hu.symm.trans hd
    rwa [ran.cfg]
  · by_cases hr : i = .release
    · exact State.modelKnown_of_none (released hr)
    · exact hs.congr (kept (fun pin model hi => hb ⟨pin, model, hi⟩) hr) ran.cfg

theorem exec_modelKnown {i : Instr} {s t : State} (h : exec i s = .next t) (hs : s.modelKnown) : t.modelKnown := by
  obtain ⟨e, -, rfl, -⟩ | ⟨u, rfl, ran⟩ := exec_ended i s t h
  · exact hs
  · exact ran.modelKnown hs

/-- Settles O51, by the cases of a step; block reset leaves the block unbound. -/
theorem stepKeepsTheModelValid : Obligations.StepKeepsTheModelValid := by
  intro s t hs h
  obtain rfl | ⟨rest, -, rfl⟩ | ⟨w, rest, -, -, ⟨i, hi⟩ | rfl⟩ := step_cases h
  · exact hs
  · exact State.modelKnown_of_none rfl
  · exact exec_modelKnown hi hs
  · exact hs

/-! ### The address byte on the wire (R76) -/

theorem getLsbD_addrW (P : Params) (a : Byte) (k : Nat) :
    (addrW P a).getLsbD k = (a.getLsbD k || P.WRITE_BIT.getLsbD k) :=
  BitVec.getLsbD_or

theorem getLsbD_addrR (P : Params) (a : Byte) (k : Nat) :
    (addrR P a).getLsbD k = (a.getLsbD k && !P.WRITE_BIT.getLsbD k) := by
  by_cases hk : k < 8
  · simp [addrR, hk]
  · simp [addrR, BitVec.getLsbD_of_ge _ _ (Nat.le_of_not_lt hk)]

/-- Settles O5, bit by bit: flipping `WRITE_BIT` in the address changes only bits that the write form sets and the read form
clears. -/
theorem addressByteCarriesTheDirection : Obligations.AddressByteCarriesTheDirection := by
  intro P a k
  refine ⟨getLsbD_addrW P a k, getLsbD_addrR P a k, ?_, ?_⟩ <;> apply BitVec.eq_of_getLsbD_eq <;> intro j _
  · rw [getLsbD_addrW, getLsbD_addrW, BitVec.getLsbD_xor]
    cases a.getLsbD j <;> cases P.WRITE_BIT.getLsbD j <;> rfl
  · rw [getLsbD_addrR, getLsbD_addrR, BitVec.getLsbD_xor]
    cases a.getLsbD j <;> cases P.WRITE_BIT.getLsbD j <;> rfl

end Sys2Proof.Machine

namespace Sys2Proof.Machine

/-! ### How an executed command answers (R25, R80, R170, R172) -/

/-- A command that has run leaves PHASE, ERR and RESULT behind; ending it puts the block at the boundary again, and the answer
shows the other two (R25, R80). -/
theorem finish_executed {s : State} (hp : s.phase = .idle) (p : Phase) (e : Err) (r : Word) :
    finish { s with phase := p, err := e, result := r } = s.answered e r := by
  simp only [finish, State.response, State.answered, hp]

/-- A command refused at the boundary is turned away. -/
theorem refused_eq_turnedAway {s : State} {e : Err} (hp : s.phase = .idle) : refused e s = .next (s.turnedAway e) :=
  congrArg Host.Outcome.next (refuse_eq_turnedAway hp)

theorem runBind_bound {i : Instr} {model : Byte} {s : State} {body : State → Exec}
    (hm : s.cfg.modelValid model = true) (hb : s.bound = true) : runBind i model s body = refused .bound s := by
  rw [runBind, if_pos hm, if_pos hb]

theorem runBind_run {i : Instr} {model : Byte} {s : State} {body : State → Exec}
    (hm : s.cfg.modelValid model = true) (hb : s.bound = false) :
    runBind i model s body = complete (body (begin i s)) := by
  rw [runBind, if_pos hm, if_neg (Bool.not_eq_true _ ▸ hb)]

/-- The refusals of a driver command that runs while no reader is live: all three hold of every such command. -/
theorem busRefusals_of_noReader {i : Instr} (hd : needsNoDriver i = false) (hr : needsReader i = false) :
    busRefusals i :=
  ⟨malformed_is_illegal i, driver_command_unbound i hd, by simpa [hr] using driver_command_lease i hd⟩

/-! ### The STATUS word, field by field (10_state.md R24) -/

/-- The one-bit fields. -/
theorem statusWord_bits (s : State) :
    (statusWord s).getLsbD 0 = s.bound ∧ (statusWord s).getLsbD 1 = s.txn ∧ (statusWord s).getLsbD 2 = s.burst ∧
    (statusWord s).getLsbD 3 = s.cs ∧ (statusWord s).getLsbD 7 = false ∧ (statusWord s).getLsbD 12 = s.sRefused ∧
    (statusWord s).getLsbD 13 = s.sPrecond ∧ (statusWord s).getLsbD 14 = s.sSbaddr ∧
    (statusWord s).getLsbD 15 = s.sRawmgd := by
  simp only [statusWord, BitVec.getLsbD_append]
  simp

/-- The wider fields: each is reached by dropping the fields below it, and then those above. -/
theorem statusWord_groups (s : State) :
    (statusWord s).extractLsb' 4 3 = s.cap.code ∧ (statusWord s).extractLsb' 8 4 = s.err.code ∧
    (statusWord s).extractLsb' 16 16 = 0#16 := by
  simp (disch := decide) only [statusWord, BitVec.extractLsb'_append_eq_of_le, BitVec.extractLsb'_append_eq_of_add_le]
  simp

/-! ### Lifecycle commands (40_lifecycle.md R100 to R103) -/

/-- Settles O15: the checks of R170 in their order, then the one event of the executed BIND. -/
theorem bindCreatesTheInstance : Obligations.BindCreatesTheInstance := by
  obtain ⟨badModel, -⟩ := enumeratedOperandsAreChecked
  refine fun pin model => ⟨decodeUndoesEncode (.bind pin model), malformed_is_illegal _,
    fun s hp hm => badModel s pin model hp hm, fun s hp hm hb => ?_, fun s hp hm hb => ?_⟩
  · rw [exec, execBind, runBind_bound hm hb, refused_eq_turnedAway hp]
  · rw [exec, execBind, runBind_run hm hb, complete_ok, ← finish_executed (by exact hp) (.run (.bind pin model) 1)]
    rfl

/-- Settles O16: with a driver and no reader RELEASE runs, and its one event names the pin of the driver it ends. -/
theorem releaseGivesThePinBack : Obligations.ReleaseGivesThePinBack := by
  refine ⟨decodeUndoesEncode .release, busRefusals_of_noReader rfl rfl, fun s d hs => ?_⟩
  rw [exec, execRelease, runDriver_ready hs rfl rfl, complete_ok, ← finish_executed (by exact hs.phase) (.run .release 1)]
  rfl

/-- Settles O17: RESULT is the STATUS word of the state before the command, whose fields are these. -/
theorem statusReportsTheStateBeforeIt : Obligations.StatusReportsTheStateBeforeIt := by
  refine ⟨decodeUndoesEncode .status, malformed_is_illegal _, fun s hp => ⟨statusWord s, ?_, ?_⟩⟩
  · rw [exec, execStatus, runAlways, complete_ok, ← finish_executed hp (.run .status 0)]
    rfl
  · obtain ⟨hbound, htxn, hburst, hcs, h7, hrefused, hprecond, hsbaddr, hrawmgd⟩ := statusWord_bits s
    obtain ⟨hcap, herr, hhigh⟩ := statusWord_groups s
    exact ⟨hbound, htxn, hburst, hcs, hcap, h7, herr, hrefused, hprecond, hsbaddr, hrawmgd, hhigh⟩

/-- Settles O18: SETDLY passes no check of R170 but that of its word, and writes one register. -/
theorem setdlyWritesTheDelay : Obligations.SetdlyWritesTheDelay := by
  refine fun ms => ⟨decodeUndoesEncode (.setdly ms), malformed_is_illegal _, fun s hp => ?_⟩
  rw [exec, execSetdly, runAlways, complete_ok, ← finish_executed (by exact hp) (.run (.setdly ms) 0)]
  rfl

end Sys2Proof.Machine

namespace Sys2Proof.Machine

/-! ### The bits of one transfer on the wire (41_bus_transaction.md R115) -/

/-- The low `n` bits of a byte in the order of the wire: bit `n - 1` first, bit 0 last. -/
def bitsDown (b : Byte) (n : Nat) : List Bool := (List.range n).reverse.map b.getLsbD

theorem bitsDown_succ (b : Byte) (n : Nat) : bitsDown b (n + 1) = b.getLsbD n :: bitsDown b n := by
  simp [bitsDown, List.range_succ]

theorem map_sclk_pulsesFrom (out inp : Byte) (n : Nat) :
    (pulsesFrom out inp n).map Lines.sclk = (List.replicate n [false, true]).flatten := by
  induction n with
  | zero => rfl
  | succ n ih => simp [pulsesFrom, clockPulse, List.replicate_succ, ih]

/-- A pulse holds one rising edge, whatever `sclk` was before it. -/
theorem sampled_clockPulse (prev : Bool) (line : Lines → Bool) (mosi miso : Bool) (ls : List Lines) :
    sampled prev line (clockPulse mosi miso ++ ls) = line ⟨true, mosi, miso⟩ :: sampled true line ls := by
  simp [clockPulse, sampled]

/-- A data line that carries `b` at each rising edge shows the bits of `b`; `sclk` going idle adds no edge. -/
theorem sampled_pulsesFrom {line : Lines → Bool} {out inp b : Byte}
    (hline : ∀ k, line ⟨true, out.getLsbD k, inp.getLsbD k⟩ = b.getLsbD k) (mosi miso : Bool) (n : Nat) (prev : Bool) :
    sampled prev line (pulsesFrom out inp n ++ [⟨false, mosi, miso⟩]) = bitsDown b n := by
  induction n generalizing prev with
  | zero => simp [pulsesFrom, sampled, bitsDown]
  | succ n ih => rw [pulsesFrom, List.append_assoc, sampled_clockPulse, ih, hline, bitsDown_succ]

theorem sampled_mosi_serialise (out inp : Byte) (mosi miso : Bool) :
    sampled false Lines.mosi (serialise out inp mosi miso) = bitsDown out 8 :=
  sampled_pulsesFrom (fun _ => rfl) mosi miso 8 false

theorem sampled_miso_serialise (out inp : Byte) (mosi miso : Bool) :
    sampled false Lines.miso (serialise out inp mosi miso) = bitsDown inp 8 :=
  sampled_pulsesFrom (fun _ => rfl) mosi miso 8 false

/-- One shift takes in the next lower bit of a byte whose higher bits have arrived. -/
theorem ushiftRight_succ_shiftLeft_or (b : Byte) (n : Nat) :
    (b >>> (n + 1)) <<< 1 ||| (BitVec.ofBool (b.getLsbD n)).setWidth 8 = b >>> n := by
  ext k hk
  cases k with
  | zero => simp
  | succ k => simp [Nat.add_assoc, Nat.add_comm 1]

/-- The shift register that holds the bits of `b` from bit `n` up, holds all of `b` after the `n` bits below. -/
theorem shiftIn_bitsDown (b : Byte) (n : Nat) : shiftIn (b >>> n) (bitsDown b n) = b := by
  induction n with
  | zero => simp [bitsDown, shiftIn]
  | succ n ih => rw [bitsDown_succ, shiftIn, ushiftRight_succ_shiftLeft_or, ih]

theorem shiftIn_zero_bitsDown (b : Byte) : shiftIn 0#8 (bitsDown b 8) = b := by
  have hempty : b >>> 8 = 0#8 := BitVec.ushiftRight_eq_zero (Nat.le_refl 8)
  rw [← hempty, shiftIn_bitsDown]

/-- Settles O6: each pulse is one rising edge and carries the next lower bit on both data lines, so what is sampled is the byte
from bit 7 down, and the shift register rebuilds it from the top. -/
theorem serialBitsReassembleTheByte : Obligations.SerialBitsReassembleTheByte := by
  refine fun out inp mosi miso => ⟨?_, sampled_mosi_serialise .., sampled_miso_serialise .., ?_, ?_⟩
  · rw [serialise, List.map_append, map_sclk_pulsesFrom]
    rfl
  · rw [received, sampled_mosi_serialise, shiftIn_zero_bitsDown]
  · rw [received, sampled_miso_serialise, shiftIn_zero_bitsDown]

end Sys2Proof.Machine

namespace Sys2Proof.Machine

/-! ### Register commands in full (42_register_access.md R120 to R124)

A register access outside a transaction returns the line to where it was, so of a bound block with no live reader the whole next
state is said by what passed on the wire. -/

/-- Outside a transaction, one register transaction leaves only what it put on the wire. -/
theorem afterReg_of_idleLine {s : State} (hc : s.cs = true) (ht : s.txn = false) (out1 out2 : Byte) :
    afterReg out1 out2 s =
      { s with sr := (s.periph.hears s.cfg out1 out2).second, periph := (s.periph.hears s.cfg out1 out2).after,
               trace := s.trace ++ regEvents out1 out2 (s.periph.hears s.cfg out1 out2), phase := s.phase.advance 4 } := by
  simp only [afterReg, hc, ht]

/-- The same of the read-modify-write of R122 and R123, which is two transactions and TMP between them. -/
theorem afterModify_of_idleLine {s : State} (hc : s.cs = true) (ht : s.txn = false) (a : Byte) (f : Byte → Byte) :
    afterModify a f s =
      { s with sr := (vendorModify s.cfg a f s.periph).sr, tmp := (vendorModify s.cfg a f s.periph).tmp,
               periph := (vendorModify s.cfg a f s.periph).periph,
               trace := s.trace ++ (vendorModify s.cfg a f s.periph).events, phase := s.phase.advance 8 } := by
  rw [afterModify, afterReg_of_idleLine rfl rfl, afterReg_of_idleLine hc ht]
  simp only [Phase.advance_advance, List.append_assoc]
  rfl

/-- A raw command starts with ERR = 0, or with `E_RAWMGD` and its flag at a managed address (R126, R173). -/
theorem flagManaged_begin (a : Byte) (i : Instr) (s : State) :
    flagManaged a (begin i s) =
      { s with phase := .run i 0, err := if managed s.cfg a then .rawmgd else .ok,
               sRawmgd := s.sRawmgd || managed s.cfg a } := by
  cases hm : managed s.cfg a <;> simp [flagManaged, flagRawmgd, begin, hm]

theorem boolWord_anyBit (r m : Byte) : boolWord (anyBit r m) = if r &&& m = 0#8 then 0#32 else 1#32 := by
  by_cases h : r &&& m = 0#8 <;> simp [boolWord, anyBit, h]

section
variable {s : State} {d : Driver}

/-- A command that reads one register and answers `g` of the byte read: its whole effect. -/
theorem runDriver_readReg_eq {i : Instr} (hs : s.Ready d) (he : enumOk i s.cfg d.model = true)
    (hn : needsReader i = false) (a : Byte) (g : Byte → Word) :
    (runDriver i s fun _ s => do
        let (r, s) ← readReg a s
        return { s with result := g r }) =
      .next (State.answered .ok (g (s.periph.holds s.cfg a))
        { s with sr := s.periph.holds s.cfg a, periph := (s.periph.hears s.cfg (addrR s.cfg a) s.cfg.DUMMY).after,
                 trace := s.trace ++ regEvents (addrR s.cfg a) s.cfg.DUMMY
                   (s.periph.hears s.cfg (addrR s.cfg a) s.cfg.DUMMY) }) := by
  rw [runDriver_ready hs he hn, readReg_ok a (by exact hs.isBound) (by exact hs.txn), Exec.ok_bind,
    afterReg_of_idleLine (by exact hs.cs) (by exact hs.txn), ← finish_executed (by exact hs.phase) (.run i 4)]
  rfl

/-- WRITE_REG: its whole effect. -/
theorem exec_writeReg_eq (hs : s.Ready d) (a v : Byte) :
    exec (.writeReg a v) s =
      .next (State.answered (if managed s.cfg a then .rawmgd else .ok) 0#32
        { s with sr := (s.periph.hears s.cfg (addrW s.cfg a) v).second,
                 periph := (s.periph.hears s.cfg (addrW s.cfg a) v).after, sRawmgd := s.sRawmgd || managed s.cfg a,
                 trace := s.trace ++ regEvents (addrW s.cfg a) v (s.periph.hears s.cfg (addrW s.cfg a) v) }) := by
  rw [exec, execWriteReg, runDriver_ready hs rfl rfl, flagManaged_begin,
    writeReg_ok a v (by exact hs.isBound) (by exact hs.txn), Exec.ok_bind,
    afterReg_of_idleLine (by exact hs.cs) (by exact hs.txn),
    ← finish_executed (by exact hs.phase) (.run (.writeReg a v) 4)]
  rfl

/-- A raw command that modifies one register: its whole effect. -/
theorem runDriver_modifyReg_eq {i : Instr} (hs : s.Ready d) (he : enumOk i s.cfg d.model = true)
    (hn : needsReader i = false) (a : Byte) (f : Byte → Byte) :
    (runDriver i s fun _ s => do
        let s ← modifyReg a f (flagManaged a s)
        return { s with result := 0#32 }) =
      .next (State.answered (if managed s.cfg a then .rawmgd else .ok) 0#32
        { s with sr := (vendorModify s.cfg a f s.periph).sr, tmp := (vendorModify s.cfg a f s.periph).tmp,
                 periph := (vendorModify s.cfg a f s.periph).periph, sRawmgd := s.sRawmgd || managed s.cfg a,
                 trace := s.trace ++ (vendorModify s.cfg a f s.periph).events }) := by
  rw [runDriver_ready hs he hn, flagManaged_begin, modifyReg_ok a f (by exact hs.isBound) (by exact hs.txn), Exec.ok_bind,
    afterModify_of_idleLine (by exact hs.cs) (by exact hs.txn), ← finish_executed (by exact hs.phase) (.run i 8)]
  rfl

end

/-- Settles O19: one register write. -/
theorem writeRegPutsAddressAndValueOnTheWire : Obligations.WriteRegPutsAddressAndValueOnTheWire := fun addr value =>
  ⟨decodeUndoesEncode (.writeReg addr value), busRefusals_of_noReader rfl rfl, fun _ _ hs => exec_writeReg_eq hs addr value⟩

/-- Settles O20: one register read, answered with the byte read. -/
theorem readRegReturnsTheDummyTransfersByte : Obligations.ReadRegReturnsTheDummyTransfersByte := fun addr =>
  ⟨decodeUndoesEncode (.readReg addr), busRefusals_of_noReader rfl rfl,
    fun _ _ hs => runDriver_readReg_eq hs rfl rfl addr zext32⟩

/-- Settles O21: a read-modify-write that sets the bits of the mask. -/
theorem setBitWritesBackTheByteReadOrMask : Obligations.SetBitWritesBackTheByteReadOrMask := fun addr mask =>
  ⟨decodeUndoesEncode (.setBit addr mask), busRefusals_of_noReader rfl rfl,
    fun _ _ hs => runDriver_modifyReg_eq hs rfl rfl addr (orMask · mask)⟩

/-- Settles O22: a read-modify-write that clears the bits of the mask. -/
theorem clearBitWritesBackTheByteReadAndNotMask : Obligations.ClearBitWritesBackTheByteReadAndNotMask := fun addr mask =>
  ⟨decodeUndoesEncode (.clearBit addr mask), busRefusals_of_noReader rfl rfl,
    fun _ _ hs => runDriver_modifyReg_eq hs rfl rfl addr (andNotMask · mask)⟩

/-- Settles O23: one register read, answered with whether the byte read has a bit of the mask. -/
theorem getBitReportsAnyBitOfTheMask : Obligations.GetBitReportsAnyBitOfTheMask := by
  refine fun addr mask => ⟨decodeUndoesEncode (.getBit addr mask), busRefusals_of_noReader rfl rfl, fun s d hs => ?_⟩
  dsimp only
  rw [← boolWord_anyBit]
  exact runDriver_readReg_eq hs rfl rfl addr fun r => boolWord (anyBit r mask)

/-! ### The bit laws follow from the round-trip law (42_register_access.md R125) -/

/-- Where the peripheral, after the read of a read-modify-write, obeys L-RT at the byte written, the register then holds the byte
read, modified. -/
theorem Peripheral.holds_vendorModify {P : Params} {a : Byte} {f : Byte → Byte} {p : Peripheral}
    (law : (p.hears P (addrR P a) P.DUMMY).after.roundTrips P a (f (p.holds P a))) :
    (vendorModify P a f p).periph.holds P a = f (p.holds P a) := law

/-- Settles O58: L-RT says what the register holds after SET_BIT (CLEAR_BIT), and of that byte the mask's bits are set (clear). -/
theorem roundTripLawGivesTheBitLaws : Obligations.RoundTripLawGivesTheBitLaws := by
  refine fun s d a m hs => ⟨fun law => ?_, fun law => ?_⟩
  · have holds := Peripheral.holds_vendorModify (f := (orMask · m)) law
    obtain ⟨t, ht, hr⟩ := runAll_modify_getBit hs (exec_setBit_ready hs a m) (by simp) (by simp) (by simp)
    exact ⟨(congrArg (· &&& m) holds).trans (orMask_and _ m), t, ht, by rw [hr, holds, boolWord_anyBit_orMask]⟩
  · have holds := Peripheral.holds_vendorModify (f := (andNotMask · m)) law
    obtain ⟨t, ht, hr⟩ := runAll_modify_getBit hs (exec_clearBit_ready hs a m) (by simp) (by simp) (by simp)
    exact ⟨(congrArg (· &&& m) holds).trans (andNotMask_and _ m), t, ht, by rw [hr, holds, boolWord_anyBit_andNotMask]⟩

end Sys2Proof.Machine

namespace Sys2Proof.Machine

/-! ### Sensor bridge (43_sensor_bridge.md R130 to R136)

A bridge command raises its flags first (R132, R133); then only its exchanges touch the state, each one event. The flags are said
by the fields they leave behind, and the exchange once for the commands that make one read. -/

/-- A command with a precondition starts with ERR = 0, or with `E_PRECOND` and its flag where CAP is outside the legal set
(R141, R173). -/
theorem check_begin (legal : List CapState) (i : Instr) (s : State) :
    check legal (begin i s) =
      { s with phase := .run i 0, err := if capOk legal s then .ok else .precond,
               sPrecond := s.sPrecond || !capOk legal s } := by
  have hcap : capOk legal (begin i s) = capOk legal s := rfl
  rw [check, hcap]
  cases capOk legal s <;> simp [flagPrecond, begin]

/-- SENSOR_WR is legal in every state but Capturing (R132, R140). -/
theorem capOk_sensorWrLegal (s : State) : capOk sensorWrLegal s = !(s.cap == .capturing) := by
  cases h : s.cap <;> simp [capOk, sensorWrLegal, h]

/-- An invalid address raises S_SBADDR and adds `E_SBADDR` to the codes of which ERR is the lowest (R133, R173). -/
theorem flagAddr_eq (d : Driver) (a : Half) (s : State) :
    flagAddr d a s =
      { s with err := if !s.cfg.sensorAddrValid d.model a then s.err.lowest .sbaddr else s.err,
               sSbaddr := s.sSbaddr || !s.cfg.sensorAddrValid d.model a } := by
  cases h : s.cfg.sensorAddrValid d.model a <;> simp [flagAddr, flagSbaddr, h]

/-- SENSOR_WR starts with the lower of the codes it raises, and the flag of each (R132, R133, R173). -/
theorem flagAddr_check_begin (d : Driver) (a : Half) (i : Instr) (s : State) :
    flagAddr d a (check sensorWrLegal (begin i s)) =
      { s with phase := .run i 0,
               err := if s.cap == .capturing then .precond else
                 if !s.cfg.sensorAddrValid d.model a then .sbaddr else .ok,
               sPrecond := s.sPrecond || s.cap == .capturing,
               sSbaddr := s.sSbaddr || !s.cfg.sensorAddrValid d.model a } := by
  rw [check_begin, capOk_sensorWrLegal, flagAddr_eq]
  cases s.cap == .capturing <;> cases s.cfg.sensorAddrValid d.model a <;> simp

/-- A command that makes one read exchange, with ERR and S_SBADDR as its address check left them: its whole effect. -/
theorem complete_sbRead {s : State} {d : Driver} (hs : s.Ready d) (i : Instr) (a : Half) (e : Err) (flag : Bool) :
    complete (do
        let (v, s) ← sbRead a { s with phase := .run i 0, err := e, sSbaddr := flag }
        return { s with result := zext32 v }) =
      .next (State.answered e (zext32 (s.periph.sbRead a).1)
        { s with periph := (s.periph.sbRead a).2, sSbaddr := flag,
                 trace := s.trace ++ [.sbRd a (s.periph.sbRead a).1] }) := by
  rw [sbRead_ok a (by exact hs.txn), Exec.ok_bind, ← finish_executed (by exact hs.phase) (.run i 1)]
  rfl

/-- The format of SENSOR_WR uses every field (R71), so its opcode alone makes a word well formed (R132). -/
theorem decode_of_sensorWr_op {w : Word} (h : fieldOp w = 0x21#8) :
    decode w = .ok (.sensorWr (pairOf (field2 w) (field1 w)) (field0 w)) :=
  (decode_of_op (i := .sensorWr 0#16 0#8) h).trans (formed_of_unusedZero rfl)

/-- Settles O24: the flag at an invalid address, and one read exchange answered with the byte read. -/
theorem sensorRdMakesOneExchange : Obligations.SensorRdMakesOneExchange := by
  refine fun addr => ⟨decodeUndoesEncode (.sensorRd addr), busRefusals_of_noReader rfl rfl, fun s d hs => ?_⟩
  rw [exec, execSensorRd, runDriver_ready hs rfl rfl, flagAddr_eq]
  exact complete_sbRead hs ..

/-- Settles O25: the two flags, and one write exchange. -/
theorem sensorWrMakesOneExchange : Obligations.SensorWrMakesOneExchange := by
  refine ⟨fun w h => ⟨_, _, decode_of_sensorWr_op h⟩, fun addr value => ?_⟩
  obtain ⟨-, unbound, lease⟩ := busRefusals_of_noReader (i := .sensorWr addr value) rfl rfl
  refine ⟨decodeUndoesEncode (.sensorWr addr value), unbound, lease, fun s d hs => ?_⟩
  dsimp only
  rw [exec, execSensorWr, runDriver_ready hs rfl rfl, flagAddr_check_begin, sbWrite_ok addr value (by exact hs.txn),
    Exec.ok_bind, ← finish_executed (by exact hs.phase) (.run (.sensorWr addr value) 1)]
  rfl

/-- Settles O26: each half is one read exchange at the bound model's address, with no flag raised before it. -/
theorem chipIdHalvesAreReadAtTheModelsAddresses : Obligations.ChipIdHalvesAreReadAtTheModelsAddresses := by
  refine ⟨decodeUndoesEncode .getChipIdHigh, busRefusals_of_noReader rfl rfl, decodeUndoesEncode .getChipIdLow,
    busRefusals_of_noReader rfl rfl, fun s d hs => ⟨?_, ?_⟩⟩
  · rw [exec, execGetChipIdHigh, runDriver_ready hs rfl rfl]
    exact complete_sbRead hs .getChipIdHigh (s.cfg.info d.model).A_CHIPID_HIGH .ok s.sSbaddr
  · rw [exec, execGetChipIdLow, runDriver_ready hs rfl rfl]
    exact complete_sbRead hs .getChipIdLow (s.cfg.info d.model).A_CHIPID_LOW .ok s.sSbaddr

/-- Settles O27: two read exchanges, the high address first; the id is the two bytes side by side. -/
theorem chipIdCombinesHighAndLow : Obligations.ChipIdCombinesHighAndLow := by
  refine ⟨decodeUndoesEncode .getChipId, busRefusals_of_noReader rfl rfl, fun s d hs => ?_⟩
  dsimp only
  rw [exec, execGetChipId, runDriver_ready hs rfl rfl, sbRead_ok _ (by exact hs.txn), Exec.ok_bind]
  dsimp only
  rw [sbRead_ok _ (by exact hs.txn), Exec.ok_bind, ← chipIdWord_eq, ← List.singleton_append, ← List.append_assoc,
    ← finish_executed (by exact hs.phase) (.run .getChipId 2)]
  rfl

end Sys2Proof.Machine

namespace Sys2Proof.Machine

/-! ### Capture sequencer (44_capture_sequencer.md R140 to R151)

A capture command raises its flag first (R141); then only its accesses touch the state, and CAP moves last. A register write is a
vendor sequence of one step (R142), so one lemma says what the commands that write put on the wire. -/

theorem capOk_one (a : CapState) (s : State) : capOk [a] s = (s.cap == a) := by
  simp only [capOk, List.contains_cons, List.contains_nil, Bool.or_false]

theorem capOk_two (a b : CapState) (s : State) : capOk [a, b] s = (s.cap == a || s.cap == b) := by
  simp only [capOk, List.contains_cons, List.contains_nil, Bool.or_false]

theorem moveCap_eq (ok : Bool) (c : CapState) (s : State) :
    moveCap ok c s = { s with cap := if ok then c else s.cap } := by
  cases ok <;> rfl

theorem runSeq_singleton (v : VendorStep) (s : State) : runSeq [v] s = runStep v s := by
  simp only [runSeq]
  cases runStep v s <;> rfl

section
variable {s : State} {d : Driver}

/-- A vendor sequence after a precondition check: the flag, and what the sequence leaves on the wire. -/
theorem runSeq_check_begin (hs : s.Ready d) (i : Instr) (legal : List CapState) (seq : List VendorStep) :
    runSeq seq (check legal (begin i s)) =
      .ok { s with phase := .run i (0 + (vendorWire s.cfg seq s.sr s.tmp s.periph).events.length),
                   err := if capOk legal s then .ok else .precond, sPrecond := s.sPrecond || !capOk legal s,
                   sr := (vendorWire s.cfg seq s.sr s.tmp s.periph).sr,
                   tmp := (vendorWire s.cfg seq s.sr s.tmp s.periph).tmp,
                   periph := (vendorWire s.cfg seq s.sr s.tmp s.periph).periph,
                   trace := s.trace ++ (vendorWire s.cfg seq s.sr s.tmp s.periph).events } := by
  rw [check_begin, runSeq_ok seq (by exact hs.isBound) (by exact hs.txn) (by exact hs.cs)]
  rfl

/-- A command that runs a sequence and leaves CAP: its whole effect. -/
theorem complete_runSeq (hs : s.Ready d) (i : Instr) (legal : List CapState) (seq : List VendorStep) :
    complete (do
        let s ← runSeq seq (check legal (begin i s))
        return { s with result := 0#32 }) =
      .next (State.answered (if capOk legal s then .ok else .precond) 0#32
        { s with sr := (vendorWire s.cfg seq s.sr s.tmp s.periph).sr,
                 tmp := (vendorWire s.cfg seq s.sr s.tmp s.periph).tmp,
                 periph := (vendorWire s.cfg seq s.sr s.tmp s.periph).periph,
                 sPrecond := s.sPrecond || !capOk legal s,
                 trace := s.trace ++ (vendorWire s.cfg seq s.sr s.tmp s.periph).events }) := by
  rw [runSeq_check_begin hs, Exec.ok_bind, ← finish_executed (by exact hs.phase) (.run i (0 + _))]
  rfl

/-- A command that runs a sequence and moves CAP to `c` where it is legal: its whole effect. -/
theorem complete_runSeq_moveCap (hs : s.Ready d) (i : Instr) (legal : List CapState) (c : CapState)
    (seq : List VendorStep) :
    complete (do
        let s' ← runSeq seq (check legal (begin i s))
        return { moveCap (capOk legal (begin i s)) c s' with result := 0#32 }) =
      .next (State.answered (if capOk legal s then .ok else .precond) 0#32
        { s with cap := if capOk legal s then c else s.cap, sr := (vendorWire s.cfg seq s.sr s.tmp s.periph).sr,
                 tmp := (vendorWire s.cfg seq s.sr s.tmp s.periph).tmp,
                 periph := (vendorWire s.cfg seq s.sr s.tmp s.periph).periph,
                 sPrecond := s.sPrecond || !capOk legal s,
                 trace := s.trace ++ (vendorWire s.cfg seq s.sr s.tmp s.periph).events }) := by
  rw [runSeq_check_begin hs, Exec.ok_bind, moveCap_eq, ← finish_executed (by exact hs.phase) (.run i (0 + _))]
  rfl

/-- A command that writes one register and moves CAP: the sequence of that one write. -/
theorem complete_writeReg_moveCap (hs : s.Ready d) (i : Instr) (legal : List CapState) (c : CapState) (a v : Byte) :
    complete (do
        let s' ← writeReg a v (check legal (begin i s))
        return { moveCap (capOk legal (begin i s)) c s' with result := 0#32 }) =
      .next (State.answered (if capOk legal s then .ok else .precond) 0#32
        { s with cap := if capOk legal s then c else s.cap,
                 sr := (s.periph.hears s.cfg (addrW s.cfg a) v).second,
                 periph := (s.periph.hears s.cfg (addrW s.cfg a) v).after, sPrecond := s.sPrecond || !capOk legal s,
                 trace := s.trace ++ regEvents (addrW s.cfg a) v (s.periph.hears s.cfg (addrW s.cfg a) v) }) := by
  have run := complete_runSeq_moveCap hs i legal c [.rw a v]
  rw [runSeq_singleton] at run
  exact run

end

/-- Settles O28: a register write and a delay, twice; no check comes before them. -/
theorem resetCpldPulsesHighThenLow : Obligations.ResetCpldPulsesHighThenLow := by
  refine ⟨decodeUndoesEncode .resetCpld, busRefusals_of_noReader rfl rfl, fun s d hs => ?_⟩
  dsimp only
  rw [exec, execResetCpld, runDriver_ready hs rfl rfl, writeReg_ok _ _ (by exact hs.isBound) (by exact hs.txn),
    Exec.ok_bind, delay_ok _ rfl, Exec.ok_bind, writeReg_ok _ _ (by exact hs.isBound) rfl, Exec.ok_bind, delay_ok _ rfl,
    Exec.ok_bind, ← finish_executed (by exact hs.phase) (.run .resetCpld 10)]
  simp only [afterReg, emit, List.append_assoc, hs.cs, hs.txn]
  rfl

/-- Settles O29: the model's sequence after the check, and CAP moved where the check passed. -/
theorem initCamRunsTheBringUpSequence : Obligations.InitCamRunsTheBringUpSequence := by
  refine ⟨decodeUndoesEncode .initCam, busRefusals_of_noReader rfl rfl, fun s d hs => ?_⟩
  dsimp only
  rw [exec, execInitCam, runDriver_ready hs rfl rfl, ← capOk_two]
  exact complete_runSeq_moveCap hs ..

/-- Settles O30: an invalid format is refused (O13); of a valid one the sequence runs after the check. -/
theorem setFormatRunsTheFormatSequence : Obligations.SetFormatRunsTheFormatSequence := by
  obtain ⟨-, badFormat, -⟩ := enumeratedOperandsAreChecked
  refine fun fmt => ⟨decodeUndoesEncode (.setFormat fmt), busRefusals_of_noReader rfl rfl,
    fun s d hp hd hf => badFormat s d fmt hp hd hf, fun s d hs hf => ?_⟩
  dsimp only
  rw [exec, execSetFormat, runDriver_ready (i := .setFormat fmt) hs hf rfl, ← capOk_one]
  exact complete_runSeq hs ..

/-- Settles O31: an invalid size is refused (O13); of a valid one the sequence runs after the check. -/
theorem setJpegSizeRunsTheSizeSequence : Obligations.SetJpegSizeRunsTheSizeSequence := by
  obtain ⟨-, -, badSize, -⟩ := enumeratedOperandsAreChecked
  refine fun size => ⟨decodeUndoesEncode (.setJpegSize size), busRefusals_of_noReader rfl rfl,
    fun s d hp hd hz => badSize s d size hp hd hz, fun s d hs hz => ?_⟩
  dsimp only
  rw [exec, execSetJpegSize, runDriver_ready (i := .setJpegSize size) hs hz rfl, ← capOk_one]
  exact complete_runSeq hs ..

/-- Settles O32: one register write after the check. -/
theorem startCaptureWritesTheTrigger : Obligations.StartCaptureWritesTheTrigger := by
  refine ⟨decodeUndoesEncode .startCapture, busRefusals_of_noReader rfl rfl, fun s d hs => ?_⟩
  dsimp only
  rw [exec, execStartCapture, runDriver_ready hs rfl rfl, ← capOk_one]
  exact complete_writeReg_moveCap hs ..

/-- Settles O35: one register write after the check. -/
theorem flushFifoWritesTheFlushValue : Obligations.FlushFifoWritesTheFlushValue := by
  refine ⟨decodeUndoesEncode .flushFifo, busRefusals_of_noReader rfl rfl, fun s d hs => ?_⟩
  dsimp only
  rw [exec, execFlushFifo, runDriver_ready hs rfl rfl, ← capOk_two]
  exact complete_writeReg_moveCap hs ..

/-- Settles O36: one register write after the check. -/
theorem clearFifoFlagWritesTheClearValue : Obligations.ClearFifoFlagWritesTheClearValue := by
  refine ⟨decodeUndoesEncode .clearFifoFlag, busRefusals_of_noReader rfl rfl, fun s d hs => ?_⟩
  dsimp only
  rw [exec, execClearFifoFlag, runDriver_ready hs rfl rfl, ← capOk_two]
  exact complete_writeReg_moveCap hs ..

/-- Settles O33: one register read after the check; CAP moves where the check passed and the done bit is set. -/
theorem captureCompletePollsTheDoneBit : Obligations.CaptureCompletePollsTheDoneBit := by
  refine ⟨decodeUndoesEncode .captureComplete, busRefusals_of_noReader rfl rfl, fun s d hs => ?_⟩
  dsimp only
  rw [exec, execCaptureComplete, runDriver_ready hs rfl rfl, ← capOk_two, check_begin,
    readReg_ok _ (by exact hs.isBound) (by exact hs.txn), Exec.ok_bind, afterReg_of_idleLine (by exact hs.cs) (by exact hs.txn)]
  dsimp only
  rw [moveCap_eq, ← finish_executed (by exact hs.phase) (.run .captureComplete 4)]
  rfl

/-- Settles O34: three register reads after the check; RESULT is the three bytes side by side. -/
theorem readFifoLengthAssemblesThreeReads : Obligations.ReadFifoLengthAssemblesThreeReads := by
  refine ⟨decodeUndoesEncode .readFifoLength, busRefusals_of_noReader rfl rfl, fun s d hs => ?_⟩
  dsimp only
  rw [exec, execReadFifoLength, runDriver_ready hs rfl rfl, ← capOk_one, check_begin,
    readReg_ok _ (by exact hs.isBound) (by exact hs.txn), Exec.ok_bind]
  dsimp only
  rw [readReg_ok _ (by exact hs.isBound) rfl, Exec.ok_bind]
  dsimp only
  rw [readReg_ok _ (by exact hs.isBound) rfl, Exec.ok_bind, fifoLengthWord_eq]
  simp only [afterReg, List.append_assoc, hs.cs, hs.txn]
  rw [← finish_executed (by exact hs.phase) (.run .readFifoLength 12)]
  rfl

/-- Settles O37, by the two ways a command ends: a refused one is left out, an executed one has moved CAP as the table says or has
flagged. -/
theorem capFollowsTheTransitionTable : Obligations.CapFollowsTheTransitionTable := by
  intro i s t h hr
  obtain ⟨e, he, rfl, -⟩ | ⟨u, rfl, ran⟩ := exec_ended i s t h
  · exact absurd he hr
  · exact ⟨ran.cap, ran.cap'⟩

end Sys2Proof.Machine

namespace Sys2Proof.Machine

/-! ### CAP never changes the wire (44_capture_sequencer.md R141, 10_state.md R17)

Run from two states that differ in CAP, ERR and S_PRECOND alone, a command's body makes the same accesses: no operation reads
any of the three, and the checks and moves of CAP write nothing else. -/

theorem Retagged.of_retag (s : State) (c : CapState) (e : Err) (p : Bool) : Retagged s (s.retag c e p) := ⟨c, e, p, rfl⟩

theorem Retagged.moveCap {s t : State} (h : Retagged s t) (ok ok' : Bool) (c : CapState) :
    Retagged (Machine.moveCap ok c s) (Machine.moveCap ok' c t) := by
  obtain ⟨b, e, p, rfl⟩ := h
  rw [moveCap_eq, moveCap_eq]
  exact ⟨_, e, p, rfl⟩

theorem Retagged.withResult {s t : State} (h : Retagged s t) (r : Word) :
    Retagged { s with result := r } { t with result := r } := by
  obtain ⟨c, e, p, rfl⟩ := h
  exact ⟨c, e, p, rfl⟩

/-- What `x` answers, `y` answers too, with a state that differs in CAP, ERR and S_PRECOND alone. -/
def Exec.Tracks (x y : Exec) : Prop := ∀ u, x = .ok u → ∃ v, y = .ok v ∧ Retagged u v

/-- The same of an operation that also returns a byte: the same byte. -/
def ReadTracks (x y : Except Fault (Byte × State)) : Prop :=
  ∀ r, x = .ok r → ∃ q, y = .ok q ∧ q.1 = r.1 ∧ Retagged r.2 q.2

theorem Exec.Tracks.ok {s t : State} (h : Retagged s t) : Exec.Tracks (.ok s) (.ok t) := by
  intro u hu
  cases hu
  exact ⟨t, rfl, h⟩

theorem Exec.Tracks.answer {s t : State} (h : Retagged s t) (r : Word) :
    Exec.Tracks (.ok { s with result := r }) (.ok { t with result := r }) :=
  .ok (h.withResult r)

theorem Exec.Tracks.bind {x y : Exec} {f g : State → Exec} (hx : x.Tracks y)
    (hf : ∀ s c e p, (f s).Tracks (g (s.retag c e p))) : Exec.Tracks (x >>= f) (y >>= g) := by
  intro u hu
  obtain ⟨s, hs, hu⟩ := Exec.bind_ok_iff.1 hu
  obtain ⟨_, ht, c, e, p, rfl⟩ := hx s hs
  rw [ht]
  exact hf s c e p u hu

theorem ReadTracks.bind {x y : Except Fault (Byte × State)} {f g : Byte × State → Exec} (hx : ReadTracks x y)
    (hf : ∀ b s c e p, (f (b, s)).Tracks (g (b, s.retag c e p))) : Exec.Tracks (x >>= f) (y >>= g) := by
  intro u hu
  obtain ⟨⟨b, s⟩, hs, hu⟩ := Exec.bind_ok_iff.1 hu
  obtain ⟨⟨_, _⟩, ht, hb, c, e, p, hr⟩ := hx _ hs
  cases hb
  cases hr
  rw [ht]
  exact hf b s c e p u hu

section
variable {s t : State} (h : Retagged s t)
include h

theorem Retagged.csLow : Exec.Tracks (Machine.csLow s) (Machine.csLow t) := fun _ => h.op csLow_retag
theorem Retagged.csHigh : Exec.Tracks (Machine.csHigh s) (Machine.csHigh t) := fun _ => h.op csHigh_retag
theorem Retagged.xfer (out : Byte) : ReadTracks (Machine.xfer out s) (Machine.xfer out t) :=
  fun _ => h.opr fun c e p => xfer_retag c e p out
theorem Retagged.delay (ms : Half) : Exec.Tracks (Machine.delay ms s) (Machine.delay ms t) :=
  fun _ => h.op fun c e p => delay_retag c e p ms
theorem Retagged.sbRead (a : Half) : ReadTracks (Machine.sbRead a s) (Machine.sbRead a t) :=
  fun _ => h.opr fun c e p => sbRead_retag c e p a
theorem Retagged.sbWrite (a : Half) (v : Byte) : Exec.Tracks (Machine.sbWrite a v s) (Machine.sbWrite a v t) :=
  fun _ => h.op fun c e p => sbWrite_retag c e p a v
theorem Retagged.writeReg (a v : Byte) : Exec.Tracks (Machine.writeReg a v s) (Machine.writeReg a v t) :=
  fun _ => h.op fun c e p => writeReg_retag c e p a v
theorem Retagged.readReg (a : Byte) : ReadTracks (Machine.readReg a s) (Machine.readReg a t) :=
  fun _ => h.opr fun c e p => readReg_retag c e p a
theorem Retagged.modifyReg (a : Byte) (f : Byte → Byte) :
    Exec.Tracks (Machine.modifyReg a f s) (Machine.modifyReg a f t) :=
  fun _ => h.op fun c e p => modifyReg_retag c e p a f
theorem Retagged.runSeq (seq : List VendorStep) : Exec.Tracks (Machine.runSeq seq s) (Machine.runSeq seq t) :=
  fun _ => h.op fun c e p => runSeq_retag c e p seq

end

/-- The same events, the same peripheral and the same RESULT. -/
def SameOutputs (s t : State) : Prop := t.trace = s.trace ∧ t.periph = s.periph ∧ t.result = s.result

theorem Retagged.sameOutputs {s t : State} (h : Retagged s t) : SameOutputs s t := by
  obtain ⟨c, e, p, rfl⟩ := h
  exact ⟨rfl, rfl, rfl⟩

theorem complete_tracks {x y : Exec} {t : State} (h : complete x = .next t) (hxy : x.Tracks y) :
    ∃ u, complete y = .next u ∧ SameOutputs t u := by
  obtain ⟨v, hv, rfl⟩ := complete_next h
  obtain ⟨w, hw, hr⟩ := hxy v hv
  exact ⟨finish w, by rw [hw, complete_ok], (hr.sameOutputs :)⟩

/-- Admission (R170) does not read CAP, so a driver command with another CAP ends as before if its body does. -/
theorem runDriver_tracks {i : Instr} {s t : State} {body : Driver → State → Exec} (c : CapState)
    (h : runDriver i s body = .next t) (hb : ∀ d v c e p, (body d v).Tracks (body d (v.retag c e p))) :
    ∃ u, runDriver i { s with cap := c } body = .next u ∧ SameOutputs t u := by
  obtain ⟨hd, hr⟩ | ⟨d, hd, he, hr⟩ | ⟨d, hd, he, hbu, hr⟩ | ⟨d, hd, he, hbu, hr⟩ := runDriver_cases i s body <;>
    rw [hr] at h
  · cases h; exact ⟨_, runDriver_unbound hd, rfl, rfl, rfl⟩
  · cases h; exact ⟨_, runDriver_badEnum hd he, rfl, rfl, rfl⟩
  · cases h; exact ⟨_, runDriver_lease hd he hbu, rfl, rfl, rfl⟩
  · rw [runDriver_run (s := { s with cap := c }) hd he hbu]
    exact complete_tracks h (hb d (begin i s) c .ok s.sPrecond)

/-- BIND with another CAP makes the same checks (R100). -/
theorem execBind_tracks {pin model : Byte} {s t : State} (c : CapState) (h : execBind pin model s = .next t) :
    ∃ u, execBind pin model { s with cap := c } = .next u ∧ SameOutputs t u := by
  unfold execBind runBind at h ⊢
  split at h
  next hm =>
    rw [if_pos hm]
    split at h
    next hb => cases h; exact ⟨_, if_pos hb, rfl, rfl, rfl⟩
    next hb => cases h; exact ⟨_, if_neg hb, rfl, rfl, rfl⟩
  next hm => cases h; exact ⟨_, if_neg hm, rfl, rfl, rfl⟩

/-- Every command but STATUS, run with another CAP, ends with the same outputs. Each driver command is followed through the
operations its body is made of. -/
theorem exec_tracks {i : Instr} {s t : State} (c : CapState) (h : exec i s = .next t) (hi : i ≠ .status) :
    ∃ u, exec i { s with cap := c } = .next u ∧ SameOutputs t u := by
  cases i <;> simp only [exec] at h ⊢
  case status => exact absurd rfl hi
  case bind => exact execBind_tracks c h
  case setdly => cases h; exact ⟨_, rfl, rfl, rfl, rfl⟩
  all_goals
    refine runDriver_tracks c h fun d v c e p => ?_
    have hv := Retagged.of_retag v c e p
  case release => exact .ok ⟨.uninitialized, e, p, rfl⟩
  case writeReg => exact (hv.flagManaged.writeReg _ _).bind fun _ _ _ _ => .answer (.of_retag ..) _
  case readReg | getBit => exact (hv.readReg _).bind fun _ _ _ _ _ => .answer (.of_retag ..) _
  case setBit | clearBit => exact (hv.flagManaged.modifyReg _ _).bind fun _ _ _ _ => .answer (.of_retag ..) _
  case sensorRd => exact (hv.flagAddr.sbRead _).bind fun _ _ _ _ _ => .answer (.of_retag ..) _
  case sensorWr => exact (hv.check.flagAddr.sbWrite _ _).bind fun _ _ _ _ => .answer (.of_retag ..) _
  case getChipIdHigh | getChipIdLow => exact (hv.sbRead _).bind fun _ _ _ _ _ => .answer (.of_retag ..) _
  case getChipId =>
    exact (hv.sbRead _).bind fun _ _ _ _ _ => ((Retagged.of_retag ..).sbRead _).bind fun _ _ _ _ _ =>
      .answer (.of_retag ..) _
  case resetCpld =>
    exact (hv.writeReg _ _).bind fun _ _ _ _ => ((Retagged.of_retag ..).delay _).bind fun _ _ _ _ =>
      ((Retagged.of_retag ..).writeReg _ _).bind fun _ _ _ _ => ((Retagged.of_retag ..).delay _).bind fun _ _ e p =>
        .ok ⟨.reset, e, p, rfl⟩
  case initCam => exact (hv.check.runSeq _).bind fun _ _ _ _ => .answer ((Retagged.of_retag ..).moveCap _ _ _) _
  case setFormat | setJpegSize => exact (hv.check.runSeq _).bind fun _ _ _ _ => .answer (.of_retag ..) _
  case startCapture | flushFifo | clearFifoFlag =>
    exact (hv.check.writeReg _ _).bind fun _ _ _ _ => .answer ((Retagged.of_retag ..).moveCap _ _ _) _
  case captureComplete =>
    exact (hv.check.readReg _).bind fun _ _ _ _ _ => .answer ((Retagged.of_retag ..).moveCap _ _ _) _
  case readFifoLength =>
    exact (hv.check.readReg _).bind fun _ _ _ _ _ => ((Retagged.of_retag ..).readReg _).bind fun _ _ _ _ _ =>
      ((Retagged.of_retag ..).readReg _).bind fun _ _ _ _ _ => .answer (.of_retag ..) _
  case burstOpen =>
    exact hv.check.csLow.bind fun _ _ _ _ => ((Retagged.of_retag ..).xfer _).bind fun _ _ c e p => .ok ⟨c, e, p, rfl⟩
  case burstNext => exact (hv.xfer _).bind fun _ _ _ _ _ => .answer (.of_retag ..) _
  case burstClose => exact hv.csHigh.bind fun _ c e p => .ok ⟨c, e, p, rfl⟩

/-- Settles O38: STATUS touches neither the wire nor the peripheral; every other command keeps all its outputs. -/
theorem capNeverChangesTheWire : Obligations.CapNeverChangesTheWire := by
  intro i s t c h
  by_cases hi : i = .status
  · subst hi
    cases h
    exact ⟨_, rfl, rfl, rfl, fun hne => absurd rfl hne⟩
  · obtain ⟨u, hu, htrace, hperiph, hresult⟩ := exec_tracks c h hi
    exact ⟨u, hu, htrace, hperiph, fun _ => hresult⟩

end Sys2Proof.Machine

namespace Sys2Proof.Machine

/-! ### Burst reader (45_burst_reader.md R160 to R165)

Each of the reader's three commands by its whole effect; then, by induction over the bytes taken, the whole burst: what it puts
on the wire, what it answers, and that the block is ready for the next. -/

/-- The refusals of the two commands of a live reader. -/
theorem readerRefusals_of_needsReader {i : Instr} (hd : needsNoDriver i = false) (hr : needsReader i = true) :
    readerRefusals i :=
  ⟨malformed_is_illegal i, driver_command_unbound i hd, by simpa [hr] using driver_command_lease i hd⟩

/-- BURST_OPEN: its whole effect. -/
theorem exec_burstOpen_eq {s : State} {d : Driver} (hs : s.Ready d) :
    exec .burstOpen s =
      .next (State.answered (if s.cap == .frameReady then .ok else .precond) 0#32
        { s with cs := false, txn := true, burst := true, sr := (s.periph.csLow.xfer s.cfg s.cfg.BURST_CMD).1,
                 periph := (s.periph.csLow.xfer s.cfg s.cfg.BURST_CMD).2,
                 sPrecond := s.sPrecond || !(s.cap == .frameReady),
                 trace := s.trace ++
                   [.csLow, .xfer s.cfg.BURST_CMD (s.periph.csLow.xfer s.cfg s.cfg.BURST_CMD).1] }) := by
  rw [exec, execBurstOpen, runDriver_ready hs rfl rfl, check_begin, capOk_one,
    csLow_ok (by exact hs.isBound) (by exact hs.txn), Exec.ok_bind, xfer_ok _ rfl, Exec.ok_bind,
    ← List.singleton_append, ← List.append_assoc, ← finish_executed (by exact hs.phase) (.run .burstOpen 2)]
  rfl

/-- BURST_NEXT: its whole effect. -/
theorem exec_burstNext_eq {s : State} {d : Driver} (hs : s.Bursting d) :
    exec .burstNext s =
      .next (State.answered .ok (zext32 (s.periph.xfer s.cfg s.cfg.DUMMY).1)
        { s with sr := (s.periph.xfer s.cfg s.cfg.DUMMY).1, periph := (s.periph.xfer s.cfg s.cfg.DUMMY).2,
                 trace := s.trace ++ [.xfer s.cfg.DUMMY (s.periph.xfer s.cfg s.cfg.DUMMY).1] }) := by
  rw [exec, execBurstNext, runDriver_bursting hs rfl rfl, xfer_ok _ (by exact hs.txn), Exec.ok_bind,
    ← finish_executed (by exact hs.inv.idle) (.run .burstNext 1)]
  rfl

/-- BURST_CLOSE: its whole effect. -/
theorem exec_burstClose_eq {s : State} {d : Driver} (hs : s.Bursting d) :
    exec .burstClose s =
      .next (State.answered .ok 0#32
        { s with cs := true, txn := false, burst := false, periph := s.periph.csHigh, trace := s.trace ++ [.csHigh] }) := by
  rw [exec, execBurstClose, runDriver_bursting hs rfl rfl, csHigh_ok (by exact hs.txn), Exec.ok_bind,
    ← finish_executed (by exact hs.inv.idle) (.run .burstClose 1)]
  rfl

/-- Settles O39: the flag, the fall of chip-select and one transfer. -/
theorem burstOpenLeavesTheTransactionOpen : Obligations.BurstOpenLeavesTheTransactionOpen :=
  ⟨decodeUndoesEncode .burstOpen, busRefusals_of_noReader rfl rfl, fun _ _ hs => exec_burstOpen_eq hs⟩

/-- Settles O40: one transfer, answered with the byte received. -/
theorem burstNextReturnsTheNextByte : Obligations.BurstNextReturnsTheNextByte :=
  ⟨decodeUndoesEncode .burstNext, readerRefusals_of_needsReader rfl rfl, fun _ _ hs => exec_burstNext_eq hs⟩

/-- Settles O41: the rise of chip-select alone. -/
theorem burstCloseDeassertsChipSelect : Obligations.BurstCloseDeassertsChipSelect :=
  ⟨decodeUndoesEncode .burstClose, readerRefusals_of_needsReader rfl rfl, fun _ _ hs => exec_burstClose_eq hs⟩

/-! ### A live reader is not interrupted (R163) -/

/-- A driver command that does not need the reader is refused while one is live. -/
theorem runDriver_refused_of_bursting {i : Instr} {s : State} {d : Driver} {body : Driver → State → Exec}
    (hs : s.Bursting d) (hn : needsReader i = false) : ∃ e, runDriver i s body = refused e s := by
  obtain ⟨-, hr⟩ | ⟨_, -, -, hr⟩ | ⟨_, -, -, -, hr⟩ | ⟨_, -, -, hb, -⟩ := runDriver_cases i s body
  · exact ⟨_, hr⟩
  · exact ⟨_, hr⟩
  · exact ⟨_, hr⟩
  · exact nomatch hs.inBurst.symm.trans (hb.trans hn)

/-- So is BIND, since the reader's block is bound. -/
theorem runBind_refused_of_bursting {i : Instr} {model : Byte} {s : State} {d : Driver} {body : State → Exec}
    (hs : s.Bursting d) : ∃ e, runBind i model s body = refused e s := by
  cases hm : s.cfg.modelValid model with
  | false => exact ⟨_, runBind_badModel hm⟩
  | true => exact ⟨_, runBind_bound hm (hs.inv.burst_bound hs.inBurst)⟩

/-- While a reader is live every command but the reader's two is refused, STATUS and SETDLY apart. -/
theorem exec_bursting_cases {i : Instr} {s : State} {d : Driver} (hs : s.Bursting d) (hn : i ≠ .burstNext)
    (hc : i ≠ .burstClose) : (∃ e, exec i s = refused e s) ∨ i = .status ∨ ∃ ms, i = .setdly ms := by
  cases i
  case burstNext => exact absurd rfl hn
  case burstClose => exact absurd rfl hc
  case status => exact .inr (.inl rfl)
  case setdly ms => exact .inr (.inr ⟨ms, rfl⟩)
  all_goals
    left
    simp only [exec]
  case bind => exact runBind_refused_of_bursting hs
  all_goals exact runDriver_refused_of_bursting hs rfl

/-- Settles O42: a refusal, STATUS and SETDLY alike leave the line, the peripheral, the driver and CAP alone. -/
theorem nothingInterruptsALiveReader : Obligations.NothingInterruptsALiveReader := by
  intro i s d hs hn hc
  obtain ⟨e, he⟩ | rfl | ⟨ms, rfl⟩ := exec_bursting_cases hs hn hc
  · exact ⟨_, he, rfl, rfl, hs.inBurst, hs.txn, hs.cs, rfl, rfl⟩
  · exact ⟨_, rfl, rfl, rfl, hs.inBurst, hs.txn, hs.cs, rfl, rfl⟩
  · exact ⟨_, rfl, rfl, rfl, hs.inBurst, hs.txn, hs.cs, rfl, rfl⟩

/-! ### A whole burst (R165) -/

theorem runAll_cons {i : Instr} (is : List Instr) {s t : State} (h : exec i s = .next t) :
    runAll (i :: is) s = runAll is t := by
  rw [runAll, h]

theorem runAll_append {is : List Instr} (js : List Instr) {s t : State} (h : runAll is s = .next t) :
    runAll (is ++ js) s = runAll js t := by
  induction is generalizing s with
  | nil => cases h; rfl
  | cons i is ih =>
    cases hi : exec i s with
    | next u =>
      rw [runAll_cons is hi] at h
      exact (runAll_cons (is ++ js) hi).trans (ih h)
    | fault f => simp only [runAll, hi, reduceCtorEq] at h
    | refused r => simp only [runAll, hi, reduceCtorEq] at h

theorem Peripheral.streams_length (P : Params) (n : Nat) (p : Peripheral) : (p.streams P n).1.length = n := by
  induction n generalizing p with
  | zero => rfl
  | succ n ih => exact congrArg Nat.succ (ih _)

/-- The state `t` is the state `s` after its live reader has taken `n` bytes. -/
structure TookBytes (n : Nat) (s t : State) : Prop where
  periph : t.periph = (s.periph.streams s.cfg n).2
  trace : t.trace = s.trace ++ (s.periph.streams s.cfg n).1.map fun b => .xfer s.cfg.DUMMY b
  responses : t.responses = s.responses ++ (s.periph.streams s.cfg n).1.map fun b => ⟨0#4, b.setWidth 32⟩
  cap : t.cap = s.cap
  cfg : t.cfg = s.cfg

/-- `n` times BURST_NEXT take the next `n` bytes the peripheral sends, and the reader lives on. -/
theorem runAll_burstNext (n : Nat) {s : State} {d : Driver} (hs : s.Bursting d) :
    ∃ t, runAll (List.replicate n .burstNext) s = .next t ∧ t.Bursting d ∧ TookBytes n s t := by
  induction n generalizing s with
  | zero => exact ⟨s, rfl, hs, rfl, (List.append_nil _).symm, (List.append_nil _).symm, rfl, rfl⟩
  | succ n ih =>
    have first := exec_burstNext_eq hs
    obtain ⟨t, ht, hb, took⟩ := ih ⟨exec_inv first hs.inv, hs.driver, hs.inBurst⟩
    exact ⟨t, (runAll_cons _ first).trans ht, hb, took.periph, took.trace.trans (List.append_assoc ..),
      took.responses.trans (List.append_assoc ..), took.cap, took.cfg⟩

/-- BURST_OPEN, `n` times BURST_NEXT, BURST_CLOSE. -/
def burstOf (n : Nat) : List Instr := .burstOpen :: (List.replicate n .burstNext ++ [.burstClose])

/-- The peripheral after the burst command. -/
def State.periphOpened (s : State) : Peripheral := (s.periph.csLow.xfer s.cfg s.cfg.BURST_CMD).2

/-- The bytes a burst of `n` takes. -/
def State.burstBytes (s : State) (n : Nat) : List Byte := (s.periphOpened.streams s.cfg n).1

/-- The events of a burst of `n`. -/
def State.burstEvents (s : State) (n : Nat) : List Event :=
  [.csLow, .xfer s.cfg.BURST_CMD (s.periph.csLow.xfer s.cfg s.cfg.BURST_CMD).1]
    ++ (s.burstBytes n).map (fun b => .xfer s.cfg.DUMMY b) ++ [.csHigh]

/-- The responses to a burst opened in CAP state `c` that takes `bytes`. -/
def burstResponses (c : CapState) (bytes : List Byte) : List Response :=
  [⟨if c = .frameReady then 0#4 else 5#4, 0#32⟩] ++ bytes.map (fun b => ⟨0#4, b.setWidth 32⟩) ++ [⟨0#4, 0#32⟩]

/-- The state `t` is the state `s` after a burst of `n`. -/
structure Burst (n : Nat) (s t : State) : Prop where
  periph : t.periph = (s.periphOpened.streams s.cfg n).2.csHigh
  trace : t.trace = s.trace ++ s.burstEvents n
  responses : t.responses = s.responses ++ burstResponses s.cap (s.burstBytes n)
  cap : t.cap = s.cap
  cfg : t.cfg = s.cfg

/-- The code BURST_OPEN answers: its precondition is FrameReady (R160, R171). -/
theorem burstOpen_code (c : CapState) :
    (if c == .frameReady then Err.ok else .precond).code = if c = .frameReady then 0#4 else 5#4 := by
  cases c <;> rfl

/-- A burst runs from a ready block to a ready block. -/
theorem runAll_burstOf (n : Nat) {s : State} {d : Driver} (hs : s.Ready d) :
    ∃ t, runAll (burstOf n) s = .next t ∧ t.Ready d ∧ Burst n s t := by
  have opened := exec_burstOpen_eq hs
  obtain ⟨u, hu, hb, took⟩ := runAll_burstNext n (d := d) ⟨exec_inv opened hs.inv, hs.driver, rfl⟩
  have closed := exec_burstClose_eq hb
  refine ⟨_, ?run, ⟨exec_inv closed hb.inv, hb.driver, rfl⟩, ?periph, ?trace, ?responses, took.cap, took.cfg⟩
  case run => exact (runAll_cons _ opened).trans ((runAll_append _ hu).trans (runAll_cons [] closed))
  case periph => exact congrArg Peripheral.csHigh took.periph
  case trace =>
    refine (congrArg (· ++ [.csHigh]) took.trace).trans ?_
    simp only [State.burstEvents, answered_trace, List.append_assoc]
    rfl
  case responses =>
    refine (congrArg (· ++ [_]) took.responses).trans ?_
    simp only [burstResponses, answered_responses, burstOpen_code, List.append_assoc]
    rfl

/-- Settles O43: the burst as a whole, which takes as many bytes as it has BURST_NEXT. -/
theorem burstOfNBytesIsOneTransaction : Obligations.BurstOfNBytesIsOneTransaction := by
  intro n s d hs
  obtain ⟨t, ht, hready, burst⟩ := runAll_burstOf n hs
  exact ⟨t, ht, Peripheral.streams_length .., burst.trace, burst.responses, hready.cs, hready.txn, hready.noBurst, burst.cap⟩

/-! ### A burst opened again (R164) -/

/-- Inside a burst the double moves its read pointer and nothing else, past the end of the frame too (R58). -/
theorem Double.streams_bursting_after (P : Params) (n : Nat) {e : Double} (hm : e.mode = .bursting) :
    ((Peripheral.double e).streams P n).2 = .double { e with rp := e.rp + n } := by
  induction n generalizing e with
  | zero => rfl
  | succ n ih =>
    have ih := ih (e := { e with rp := e.rp + 1 }) hm
    rw [Nat.add_right_comm, Nat.add_assoc] at ih
    rw [← ih]
    simp [Peripheral.streams, Peripheral.xfer, Double.xfer, hm]

/-- A burst of any length leaves the double its frame. -/
theorem Burst.double_fifo {n : Nat} {s t : State} {e : Double} (burst : Burst n s t) (he : s.periph = .double e)
    (hc : s.cfg.burstCmdIsRead = true) : ∃ f, t.periph = .double f ∧ f.fifo = e.fifo := by
  refine ⟨{ e with rp := 0 + n, mode := .idle }, ?_, rfl⟩
  rw [burst.periph, State.periphOpened, he, Double.csLow_xfer_burstCmd hc, Double.streams_bursting_after _ _ rfl]
  rfl

/-- Settles O60: the first burst leaves the block ready and the double its frame, and the second streams that frame from byte 0
(O59). -/
theorem reopenedBurstStartsAtByteZero : Obligations.ReopenedBurstStartsAtByteZero := by
  intro n m s d e hs he hc hm
  obtain ⟨t, ht, ready, first⟩ := runAll_burstOf n hs
  obtain ⟨u, hu, -, second⟩ := runAll_burstOf m ready
  obtain ⟨f, hf, fifo⟩ := first.double_fifo he hc
  have bytes : t.burstBytes m = e.fifo.take m := by
    rw [State.burstBytes, State.periphOpened, hf, first.cfg, ← fifo]
    exact doubleStreamsTheFrameInOrder s.cfg f hc m (fifo ▸ hm)
  refine ⟨u, (runAll_append (burstOf m) ht).trans hu, t.responses, ?_⟩
  rw [second.responses, bytes, first.cap]
  rfl

end Sys2Proof.Machine

namespace Sys2Proof.Machine

/-! ### How commands end (60_exceptions.md R170 to R178, R182)

The admission of each command and its whole effect are said above, command by command. What follows from them of all commands: who
is refused when, what a refusal and an executed command leave alone, and that every command ends. -/

/-- Settles O14: a refused command is turned away with its code; an executed one ends with no refusal code. -/
theorem refusedCommandHasDoneNothing : Obligations.RefusedCommandHasDoneNothing := by
  intro i s t hp h hcode
  obtain ⟨e, -, rfl, -⟩ | ⟨u, rfl, ran⟩ := exec_ended i s t h
  · exact refuse_eq_turnedAway hp
  · exact absurd hcode ran.err

/-- Settles O49: a refusal raises neither flag, and of the executed commands only a raw one does. -/
theorem onlyRawCommandsRaiseTheRawFlags : Obligations.OnlyRawCommandsRaiseTheRawFlags := by
  intro i s t h hraw
  obtain ⟨e, -, rfl, -⟩ | ⟨u, rfl, ran⟩ := exec_ended i s t h
  · exact ⟨rfl, rfl⟩
  · exact ⟨ran.sRawmgd.resolve_right (by simp [hraw]), ran.sSbaddr.resolve_right (by simp [hraw])⟩

/-! ### Ownership and the lease (R175, R176) -/

/-- STATUS is executed in every idle state (R102). -/
theorem exec_status_ok {s : State} (hp : s.phase = .idle) : ∃ t, exec .status s = .next t ∧ t.err = .ok := by
  obtain ⟨-, -, runs⟩ := statusReportsTheStateBeforeIt
  obtain ⟨w, hw, -⟩ := runs s hp
  exact ⟨_, hw, rfl⟩

/-- SETDLY is executed in every idle state (R103). -/
theorem exec_setdly_ok {s : State} (hp : s.phase = .idle) (ms : Half) :
    ∃ t, exec (.setdly ms) s = .next t ∧ t.err = .ok := by
  obtain ⟨-, -, runs⟩ := setdlyWritesTheDelay ms
  exact ⟨_, runs s hp, rfl⟩

/-- A BIND of a valid model is executed while BOUND = 0 (R100). -/
theorem exec_bind_ok {s : State} (hp : s.phase = .idle) (hb : s.bound = false) (pin : Byte) {model : Byte}
    (hm : s.cfg.modelValid model = true) : ∃ t, exec (.bind pin model) s = .next t ∧ t.err = .ok := by
  obtain ⟨-, -, -, -, runs⟩ := bindCreatesTheInstance pin model
  exact ⟨_, runs s hp hm hb, rfl⟩

/-- It is refused while BOUND = 1 (R100). -/
theorem exec_bind_bound {s : State} (hp : s.phase = .idle) (hb : s.bound = true) (pin : Byte) {model : Byte}
    (hm : s.cfg.modelValid model = true) : exec (.bind pin model) s = .next (s.turnedAway .bound) := by
  obtain ⟨-, -, -, isBound, -⟩ := bindCreatesTheInstance pin model
  exact isBound s hp hm hb

/-- The commands of a live reader are two (R170 step 7). -/
theorem needsReader_iff {i : Instr} : needsReader i = true ↔ i = .burstNext ∨ i = .burstClose := by
  cases i <;> simp [needsReader]

/-- Settles O11: the driver commands are refused by their shared admission, BIND by its own. -/
theorem ownershipIsCheckedAtRunTime : Obligations.OwnershipIsCheckedAtRunTime := fun s hp =>
  ⟨fun hb i hn => driver_command_unbound i hn s hp hb, fun hb pin _ hm => exec_bind_ok hp hb pin hm, exec_status_ok hp,
    exec_setdly_ok hp, fun hb pin _ hm => exec_bind_bound hp hb pin hm⟩

/-- Settles O12: a driver command is refused while BURST has the value it cannot run with, and a live reader's block is bound. -/
theorem leaseIsCheckedAtRunTime : Obligations.LeaseIsCheckedAtRunTime := by
  refine fun s d hs hd => ⟨fun hb i hn hnext hclose he => ?_, fun hb => ⟨?_, ?_⟩, exec_status_ok hs.idle,
    exec_setdly_ok hs.idle, fun hb pin _ hm => exec_bind_bound hs.idle (hs.burst_bound hb) pin hm⟩
  · have hr : needsReader i = false := by simp [← Bool.not_eq_true, needsReader_iff, hnext, hclose]
    obtain ⟨-, -, lease⟩ := busRefusals_of_noReader hn hr
    exact lease s d hs.idle hd he hb
  · obtain ⟨-, -, lease⟩ := readerRefusals_of_needsReader (i := .burstNext) rfl rfl
    exact lease s d hs.idle hd rfl hb
  · obtain ⟨-, -, lease⟩ := readerRefusals_of_needsReader (i := .burstClose) rfl rfl
    exact lease s d hs.idle hd rfl hb

/-! ### Every command ends (R178) -/

/-- A command that needs no driver ends, whatever BOUND and BURST are. -/
theorem exec_answers_of_needsNoDriver {i : Instr} {s : State} (hp : s.phase = .idle) (hn : needsNoDriver i = true) :
    ∃ t, exec i s = .next t := by
  cases i <;> simp only [needsNoDriver, Bool.false_eq_true] at hn
  case bind pin model =>
    obtain ⟨-, -, badModel, isBound, runs⟩ := bindCreatesTheInstance pin model
    cases hm : s.cfg.modelValid model with
    | false => exact ⟨_, badModel s hp hm⟩
    | true =>
      cases hb : s.bound with
      | false => exact ⟨_, runs s hp hm hb⟩
      | true => exact ⟨_, isBound s hp hm hb⟩
  case status => exact (exec_status_ok hp).imp fun _ => And.left
  case setdly ms => exact (exec_setdly_ok hp ms).imp fun _ => And.left

/-- With a driver and no live reader every driver command ends: the two of the reader are refused, and each of the others runs
to the state its own rule names, or has its operand refused (R75). -/
theorem exec_answers_of_ready {i : Instr} {s : State} {d : Driver} (hs : s.Ready d) (hn : needsNoDriver i = false) :
    ∃ t, exec i s = .next t := by
  cases i <;> simp only [needsNoDriver, Bool.true_eq_false] at hn
  case release => obtain ⟨-, -, runs⟩ := releaseGivesThePinBack; exact ⟨_, runs s d hs⟩
  case writeReg a v => exact ⟨_, exec_writeReg_eq hs a v⟩
  case readReg a => obtain ⟨-, -, runs⟩ := readRegReturnsTheDummyTransfersByte a; exact ⟨_, runs s d hs⟩
  case setBit a m => obtain ⟨-, -, runs⟩ := setBitWritesBackTheByteReadOrMask a m; exact ⟨_, runs s d hs⟩
  case clearBit a m => obtain ⟨-, -, runs⟩ := clearBitWritesBackTheByteReadAndNotMask a m; exact ⟨_, runs s d hs⟩
  case getBit a m => obtain ⟨-, -, runs⟩ := getBitReportsAnyBitOfTheMask a m; exact ⟨_, runs s d hs⟩
  case sensorRd a => obtain ⟨-, -, runs⟩ := sensorRdMakesOneExchange a; exact ⟨_, runs s d hs⟩
  case sensorWr a v => obtain ⟨-, -, -, runs⟩ := sensorWrMakesOneExchange.2 a v; exact ⟨_, runs s d hs⟩
  case getChipIdHigh =>
    obtain ⟨-, -, -, -, runs⟩ := chipIdHalvesAreReadAtTheModelsAddresses; exact ⟨_, (runs s d hs).1⟩
  case getChipIdLow =>
    obtain ⟨-, -, -, -, runs⟩ := chipIdHalvesAreReadAtTheModelsAddresses; exact ⟨_, (runs s d hs).2⟩
  case getChipId => obtain ⟨-, -, runs⟩ := chipIdCombinesHighAndLow; exact ⟨_, runs s d hs⟩
  case resetCpld => obtain ⟨-, -, runs⟩ := resetCpldPulsesHighThenLow; exact ⟨_, runs s d hs⟩
  case initCam => obtain ⟨-, -, runs⟩ := initCamRunsTheBringUpSequence; exact ⟨_, runs s d hs⟩
  case setFormat fmt =>
    obtain ⟨-, -, badFormat, runs⟩ := setFormatRunsTheFormatSequence fmt
    cases hf : s.cfg.fmtValid d.model fmt with
    | false => exact ⟨_, badFormat s d hs.phase hs.driver hf⟩
    | true => exact ⟨_, runs s d hs hf⟩
  case setJpegSize size =>
    obtain ⟨-, -, badSize, runs⟩ := setJpegSizeRunsTheSizeSequence size
    cases hz : s.cfg.sizeValid d.model size with
    | false => exact ⟨_, badSize s d hs.phase hs.driver hz⟩
    | true => exact ⟨_, runs s d hs hz⟩
  case startCapture => obtain ⟨-, -, runs⟩ := startCaptureWritesTheTrigger; exact ⟨_, runs s d hs⟩
  case captureComplete => obtain ⟨-, -, runs⟩ := captureCompletePollsTheDoneBit; exact ⟨_, runs s d hs⟩
  case readFifoLength => obtain ⟨-, -, runs⟩ := readFifoLengthAssemblesThreeReads; exact ⟨_, runs s d hs⟩
  case flushFifo => obtain ⟨-, -, runs⟩ := flushFifoWritesTheFlushValue; exact ⟨_, runs s d hs⟩
  case clearFifoFlag => obtain ⟨-, -, runs⟩ := clearFifoFlagWritesTheClearValue; exact ⟨_, runs s d hs⟩
  case burstOpen => exact ⟨_, exec_burstOpen_eq hs⟩
  case burstNext => exact ⟨_, driver_command_lease .burstNext rfl s d hs.phase hs.driver rfl hs.noBurst⟩
  case burstClose => exact ⟨_, driver_command_lease .burstClose rfl s d hs.phase hs.driver rfl hs.noBurst⟩

/-- While a reader is live its own two commands run; no other command touches the bus (R163), and each ends. -/
theorem exec_answers_of_bursting {s : State} {d : Driver} (hs : s.Bursting d) (i : Instr) : ∃ t, exec i s = .next t := by
  by_cases hn : i = .burstNext
  · exact ⟨_, hn ▸ exec_burstNext_eq hs⟩
  by_cases hc : i = .burstClose
  · exact ⟨_, hc ▸ exec_burstClose_eq hs⟩
  exact (nothingInterruptsALiveReader i s d hs hn hc).imp fun _ => And.left

/-- From a state with the invariant every command ends: none calls a micro-operation where R7 forbids it. -/
theorem exec_answers {s : State} (hs : s.Inv) (i : Instr) : ∃ t, exec i s = .next t := by
  cases hn : needsNoDriver i with
  | true => exact exec_answers_of_needsNoDriver hs.idle hn
  | false =>
    cases hd : s.driver with
    | none => exact ⟨_, driver_command_unbound i hn s hs.idle (by simp [hd])⟩
    | some d =>
      cases hb : s.burst with
      | false => exact exec_answers_of_ready ⟨hs, hd, hb⟩ hn
      | true => exact exec_answers_of_bursting ⟨hs, hd, hb⟩ i

/-- A command that ends gives one response, which shows ERR and RESULT (R80). -/
theorem exec_responses {i : Instr} {s t : State} (h : exec i s = .next t) :
    t.responses = s.responses ++ [⟨t.err.code, t.result⟩] := by
  obtain ⟨e, -, rfl, -⟩ | ⟨u, rfl, ran⟩ := exec_ended i s t h
  · rfl
  · exact congrArg (· ++ [u.response]) ran.responses

/-- At the boundary, a block with no live reader has its line at rest (R26). -/
theorem State.Inv.atRest {s : State} (hs : s.Inv) (hb : s.burst = false) : s.AtRest := by
  obtain ⟨-, hline, -⟩ := State.inv_iff.1 hs
  exact hline.resolve_right fun ⟨_, _, hburst, _⟩ => nomatch hburst.symm.trans hb

/-- Settles O46: every command ends, IDLE and with its response; from rest, every command but BURST_OPEN ends at rest. -/
theorem everyCommandEndsWithOneResponse : Obligations.EveryCommandEndsWithOneResponse := by
  intro i s hs
  obtain ⟨t, ht⟩ := exec_answers hs i
  refine ⟨t, ht, exec_idle ht, exec_responses ht, fun hb hi => ?_⟩
  obtain ⟨hcs, htxn, -⟩ := exec_atRest ht hi (hs.atRest hb)
  exact ⟨hcs, htxn⟩

end Sys2Proof.Machine

namespace Sys2Proof.Machine

/-! ### An oracle and its script (20_memory.md R52, log entry 5) -/

/-- While its script lasts, an oracle answers with the script's first byte and keeps the rest. -/
theorem oracleAnswer_cons (b : Byte) (rest : List Byte) (n : Nat) :
    oracleAnswer (b :: rest) n = (b, .oracle rest (n + 1)) := rfl

/-- Settles O52: chip-select moves nothing in an oracle, and each byte received is one answer, the next of the script. -/
theorem oracleAnswersInOrder : Obligations.OracleAnswersInOrder := by
  intro P x y q n o1 o2 a
  constructor
  · simp only [Peripheral.hears, Peripheral.csLow, Peripheral.xfer, oracleAnswer_cons, Peripheral.csHigh]
  · exact oracleAnswer_cons x q n

/-! ### The double's memories stay canonical (log entry 16)

Only a register write and a sensor write store, one byte each, and one byte written keeps the canonical form. So every act of the
block on the bus keeps it, and with them every command. -/

/-- An oracle stays an oracle, which holds no memory. -/
theorem oracleAnswer_wf (script : List Byte) (n : Nat) : (oracleAnswer script n).2.wf := by
  obtain ⟨rest, ho⟩ := oracleAnswer_isOracle script n
  rw [ho]
  trivial

theorem Peripheral.wf.csLow {p : Peripheral} (h : p.wf) : p.csLow.wf := by cases p <;> exact h

theorem Peripheral.wf.csHigh {p : Peripheral} (h : p.wf) : p.csHigh.wf := by cases p <;> exact h

theorem Peripheral.wf.xfer {p : Peripheral} (h : p.wf) (P : Params) (out : Byte) : (p.xfer P out).2.wf := by
  cases p with
  | oracle script n => exact oracleAnswer_wf script n
  | double d => exact d.wf_xfer P out h

theorem Peripheral.wf.sbRead {p : Peripheral} (h : p.wf) (a : Half) : (p.sbRead a).2.wf := by
  cases p with
  | oracle script n => exact oracleAnswer_wf script n
  | double d => exact h

theorem Peripheral.wf.sbWrite {p : Peripheral} (h : p.wf) (a : Half) (v : Byte) : (p.sbWrite a v).wf := by
  cases p with
  | oracle script n => exact h
  | double d =>
    obtain ⟨hreg, hsreg⟩ := h
    exact ⟨hreg, d.sreg.wf_write a.toNat v hsreg⟩

/-- What happened between two states of a peripheral has kept the canonical form. -/
def Peripheral.KeptCanonical (p q : Peripheral) : Prop := p.wf → q.wf

/-- Every act of the block on the bus keeps the canonical form. -/
theorem Peripheral.keptCanonical_closed (P : Params) : Closed P Peripheral.KeptCanonical where
  refl _ h := h
  trans _ _ _ hpq hqr h := hqr (hpq h)
  csLow _ h := h.csLow
  csHigh _ h := h.csHigh
  xfer _ out h := h.xfer P out
  sbRead _ a h := h.sbRead a
  sbWrite _ a v h := h.sbWrite a v

/-- Block reset shows the peripheral at most the rise of chip-select (R191, R192). -/
theorem blockReset_periph_wf {s : State} (h : s.periph.wf) : (blockReset s).periph.wf := by
  cases ht : s.txn with
  | false => rwa [blockReset_periph_of_idle ht]
  | true => rw [blockReset_periph_of_txn ht]; exact h.csHigh

/-- Settles O54, by the cases of a step: the block holds, is reset, or takes a word, which runs or is refused. -/
theorem stepKeepsTheDoublesMemoriesCanonical : Obligations.StepKeepsTheDoublesMemoriesCanonical := by
  intro s t hs h
  obtain rfl | ⟨rest, -, rfl⟩ | ⟨w, rest, -, -, ⟨i, hi⟩ | rfl⟩ := step_cases h
  · exact hs
  · exact blockReset_periph_wf (s := { s with inputs := rest }) hs
  · exact exec_closed (Peripheral.keptCanonical_closed _) hi hs
  · exact hs

end Sys2Proof.Machine
